-- ==== Sys2Proof/Word.lean ====
section
/-! DEFINITION. The plain types the other files share: bytes, and the names of links, lanes, decks and channels
(00_scope.md 4.3; the codes are those of R192). -/

namespace Sys2Proof

/-- One byte of a frame. -/
abbrev Byte := BitVec 8

/-- A station link: L-A 0, L-B 1, L-C 2 (R192). -/
abbrev LinkId := Fin 3

/-- A lane L0 to L3; lane n works with deck n. -/
abbrev LaneId := Fin 4

/-- A deck D0 to D3. -/
abbrev DeckId := Fin 4

/-- A load-cell channel C0 to C15. -/
abbrev ChanId := Fin 16

end Sys2Proof
end

