-- ==== Sys2Proof/Syntax.lean ====
section
/-! DEFINITION. The commands: one constructor per row of spec/opcode_table.json. A request row is a frame whose
CRC matched (R184), given by the link it came on, its tag and its payload bytes (R183); its kind is the row. -/

namespace Sys2Proof

/-- The two loops of a lane (R73). -/
inductive LoopId where
  | deck | clear
  deriving DecidableEq, Repr

/-- The two limit inputs of a lane (R76). -/
inductive LimitId where
  | up | down
  deriving DecidableEq, Repr

/-- Why a frame in reception is bad (R184; the gap is a row of its own). -/
inductive FrameFault where
  | lengthBelow2 | lengthAbove200 | noStopBit | crcMismatch
  deriving DecidableEq, Repr

/-- The strap pins of one link, high pin first (R182). -/
structure LinkStraps where
  speed : BitVec 2
  role : BitVec 2
  deriving DecidableEq, Repr

/-- The strap pins of the three links, read at every reset (R182). -/
abbrev Straps := Vector LinkStraps 3

/-- One command of the queue: the rows of the table, in its order. -/
inductive Instr where
  /-- R1, R2: a reading word; `checkOk` says whether its check is right (log entry 4). -/
  | cellReading (c : ChanId) (raw : BitVec 24) (checkOk : Bool)
  | periodTimerExpiry
  | warmUpTimerExpiry (d : DeckId)
  | idleTimerExpiry (d : DeckId)
  | stableTimeoutExpiry (d : DeckId)
  | loopLevelChange (n : LaneId) (loop : LoopId) (occupied : Bool)
  | loopDebounceExpiry (n : LaneId) (loop : LoopId)
  | detectorFaultAsserted (n : LaneId) (loop : LoopId)
  | detectorFaultCleared (n : LaneId) (loop : LoopId)
  | limitInputChange (n : LaneId) (lim : LimitId) (active : Bool)
  | limitDebounceExpiry (n : LaneId) (lim : LimitId)
  | travelTimerExpiry (n : LaneId)
  | settleTimerExpiry (n : LaneId)
  | resolutionTimerExpiry (n : LaneId)
  | clockSecond
  | storeWriteDone
  | admitVehicle (l : LinkId) (tag : Byte) (payload : List Byte)
  | depart (l : LinkId) (tag : Byte) (payload : List Byte)
  | recapture (l : LinkId) (tag : Byte) (payload : List Byte)
  | cancel (l : LinkId) (tag : Byte) (payload : List Byte)
  | reraise (l : LinkId) (tag : Byte) (payload : List Byte)
  | clearLane (l : LinkId) (tag : Byte) (payload : List Byte)
  | voidVisit (l : LinkId) (tag : Byte) (payload : List Byte)
  | reclassify (l : LinkId) (tag : Byte) (payload : List Byte)
  | manualRaise (l : LinkId) (tag : Byte) (payload : List Byte)
  | lowerReset (l : LinkId) (tag : Byte) (payload : List Byte)
  | spotWeigh (l : LinkId) (tag : Byte) (payload : List Byte)
  | wake (l : LinkId) (tag : Byte) (payload : List Byte)
  | zeroDeck (l : LinkId) (tag : Byte) (payload : List Byte)
  /-- `calen`: the level of the CALEN pin as the request is taken (log entry 5). -/
  | zeroCal (l : LinkId) (tag : Byte) (payload : List Byte) (calen : Bool)
  | serviceEnter (l : LinkId) (tag : Byte) (payload : List Byte)
  | serviceLeave (l : LinkId) (tag : Byte) (payload : List Byte)
  | tareWrite (l : LinkId) (tag : Byte) (payload : List Byte)
  | tareErase (l : LinkId) (tag : Byte) (payload : List Byte)
  | tareRead (l : LinkId) (tag : Byte) (payload : List Byte)
  | setupWrite (l : LinkId) (tag : Byte) (payload : List Byte) (calen : Bool)
  | setupRead (l : LinkId) (tag : Byte) (payload : List Byte) (calen : Bool)
  | setYardMode (l : LinkId) (tag : Byte) (payload : List Byte)
  | setClock (l : LinkId) (tag : Byte) (payload : List Byte)
  | readClock (l : LinkId) (tag : Byte) (payload : List Byte)
  | setTicketBase (l : LinkId) (tag : Byte) (payload : List Byte)
  | restart (l : LinkId) (tag : Byte) (payload : List Byte)
  | identify (l : LinkId) (tag : Byte) (payload : List Byte)
  | readDeck (l : LinkId) (tag : Byte) (payload : List Byte)
  | readLane (l : LinkId) (tag : Byte) (payload : List Byte)
  | readVisit (l : LinkId) (tag : Byte) (payload : List Byte)
  | listVisits (l : LinkId) (tag : Byte) (payload : List Byte)
  | readTicket (l : LinkId) (tag : Byte) (payload : List Byte)
  | slotRead (l : LinkId) (tag : Byte) (payload : List Byte)
  | slotReturn (l : LinkId) (tag : Byte) (payload : List Byte)
  | slotHalt (l : LinkId) (tag : Byte) (payload : List Byte)
  | slotResume (l : LinkId) (tag : Byte) (payload : List Byte)
  | setSubscription (l : LinkId) (tag : Byte) (payload : List Byte)
  | setJournalRole (l : LinkId) (tag : Byte) (payload : List Byte)
  /-- R186 step 2: a frame whose kind is no request code. -/
  | unknownKind (l : LinkId) (kind : Byte) (tag : Byte) (payload : List Byte)
  | badFrame (l : LinkId) (why : FrameFault)
  | frameGapTimeout (l : LinkId)
  | frameSent (l : LinkId)
  | restartBegin (straps : Straps)
  | powerOn (straps : Straps)
  | resetPinAssert
  | resetPinRelease (straps : Straps)
  | storeScanDone
  | mainSupplyLoss
  | backupSupplyFail
  | frameLeadByte (l : LinkId)
  deriving DecidableEq, Repr

end Sys2Proof
end

