-- ==== Sys2Proof/Decode.lean ====
section
/-! DEFINITION. The table gives no row any bits, so no word spells a command (98_reader.md: n_rows_with_fixed 0,
n_rows_unread 66). A request is named by the kind byte of its frame (R190); the frame's bytes are read in
Machine/Receive.lean, the fields of its payload (R190, R192) in Machine/Operands.lean. -/

namespace Sys2Proof

/-- The command a word of `nbits` bits spells: none, since no row of the table gives bits. -/
def decodeTableWord (_nbits _w : Nat) : Option Instr := none

/-- R190: the command that the kind byte of a frame names; any other kind is no request code (R186 step 2). `calen`: the
level of the CALEN pin as the frame is taken, for the requests that read it (log entry 5). -/
def commandOf (l : LinkId) (kind tag : Byte) (p : List Byte) (calen : Bool) : Instr :=
  match kind.toNat with
  | 0x01 => .admitVehicle l tag p
  | 0x02 => .depart l tag p
  | 0x03 => .recapture l tag p
  | 0x04 => .cancel l tag p
  | 0x05 => .reraise l tag p
  | 0x06 => .clearLane l tag p
  | 0x07 => .voidVisit l tag p
  | 0x08 => .reclassify l tag p
  | 0x10 => .manualRaise l tag p
  | 0x11 => .lowerReset l tag p
  | 0x18 => .spotWeigh l tag p
  | 0x19 => .wake l tag p
  | 0x1A => .zeroDeck l tag p
  | 0x1B => .zeroCal l tag p calen
  | 0x1C => .serviceEnter l tag p
  | 0x1D => .serviceLeave l tag p
  | 0x20 => .tareWrite l tag p
  | 0x21 => .tareErase l tag p
  | 0x22 => .tareRead l tag p
  | 0x23 => .setupWrite l tag p calen
  | 0x24 => .setupRead l tag p calen
  | 0x28 => .setYardMode l tag p
  | 0x29 => .setClock l tag p
  | 0x2A => .readClock l tag p
  | 0x2B => .setTicketBase l tag p
  | 0x2C => .restart l tag p
  | 0x2D => .identify l tag p
  | 0x30 => .readDeck l tag p
  | 0x31 => .readLane l tag p
  | 0x32 => .readVisit l tag p
  | 0x33 => .listVisits l tag p
  | 0x34 => .readTicket l tag p
  | 0x38 => .slotRead l tag p
  | 0x39 => .slotReturn l tag p
  | 0x3A => .slotHalt l tag p
  | 0x3B => .slotResume l tag p
  | 0x3C => .setSubscription l tag p
  | 0x3D => .setJournalRole l tag p
  | _ => .unknownKind l kind tag p

end Sys2Proof
end

