-- ==== Sys2Proof/Config.lean ====
section
/-! DEFINITION. The free values: what the spec leaves open and no proof may know (each names its log entry). -/

namespace Sys2Proof.Config

/-- Whether the n-th write abandoned had changed a stored field before it was cut off, where its fields were not those
that stood there already (R131 leaves both open). Log entry 1. -/
opaque writeTorn : Nat → Bool

/-- How the absent SETUP_BAD of a calibration record is shown in a SETUP_READ reply (R141 says "absent" and no
layout is given). Log entry 18. -/
opaque setupBadAbsent : List Byte

/-- The check word of a tare entry over its other fields (R129, R131), which a TARE_READ reply carries (R135); neither
its polynomial nor the layout it is computed over is given. Log entry 36. -/
opaque checkWord : List Byte → BitVec 16

/-- The area byte of the write engine field while the engine is IDLE (R135, R141 give none). Log entry 18. -/
opaque engineAreaIdle : Byte

/-- The outstanding count of a link that is not HOLD in the journal summary (R161 says "absent otherwise").
Log entry 18. -/
opaque outstandingAbsent : BitVec 32

/-- The gap tally of a link that is not FOLLOW in the journal summary (R161 says "absent otherwise").
Log entry 18. -/
opaque gapTallyAbsent : BitVec 32

end Sys2Proof.Config
end

