-- ==== Sys2Proof/Machine/Records.lean ====
section
/-! DEFINITION. The records the blocks keep and exchange: calibration and setup records (R9, R12, R70, R140),
captures (R51 to R67), raise causes (R78), the lane status word (R91), visits (R96), tickets (R146), notices (R173),
replies (R186, R191). Plain data only. -/

namespace Sys2Proof.Machine

/-- A timer of the part: stopped, or running with the length it was started with (log entry 7). Milliseconds, but
for the period timer (microseconds). -/
abbrev Timer := Option Nat

/-! ### Weighing -/

/-- R6. -/
inductive Saturation where
  | none | positive | negative
  deriving DecidableEq, Repr

/-- R28; codes of R192 in this order. -/
inductive DeckState where
  | unused | sleep | warming | active | fault | service
  deriving DecidableEq, Repr

/-- A calibration record (R9): zero count Z, span S, deck. -/
structure CalRecord where
  zero : Int
  span : Nat
  deck : Option DeckId
  deriving DecidableEq, Repr

/-- R9's defaults. -/
def CalRecord.default : CalRecord := ⟨0, 65536, none⟩

/-- A deck setup record (R12): kg, kg, exponent, samples, divisions, s, s, min. -/
structure DeckSetup where
  max : Nat
  e : Nat
  k : Nat
  m : Nat
  b : Nat
  stableTimeout : Nat
  warmUp : Nat
  idleSleep : Nat
  deriving DecidableEq, Repr

/-- R12's defaults. -/
def DeckSetup.default : DeckSetup := ⟨60000, 20, 2, 16, 1, 10, 20, 30⟩

/-- The four wake enables (R42, R70). -/
structure WakeMask where
  deckRising : Bool
  deckFalling : Bool
  clearRising : Bool
  clearFalling : Bool
  deriving DecidableEq, Repr

/-- R70. -/
inductive Direction where
  | entry | exit
  deriving DecidableEq, Repr

/-- A lane setup record (R70): loop filter in ms, settle in tenths of a second (R190), travel in s. -/
structure LaneSetup where
  enabled : Bool
  direction : Direction
  loopFilter : Nat
  settle : Nat
  travel : Nat
  wake : WakeMask
  deriving DecidableEq, Repr

/-- R70's defaults. -/
def LaneSetup.default : LaneSetup := ⟨false, .entry, 300, 10, 6, ⟨true, false, false, false⟩⟩

/-- The yard setup record (R140): sampling exponent, maximum stay in hours. -/
structure YardSetup where
  p : Nat
  maxStay : Nat
  deriving DecidableEq, Repr

/-- R140's defaults. -/
def YardSetup.default : YardSetup := ⟨3, 8⟩

/-- Why a deck is WARMING (R43, R44): none, EDGE with the waking loop and the level it had before the edge
(true: occupied), or REQUEST. -/
inductive WakeCause where
  | none
  | edge (loop : LoopId) (wasOccupied : Bool)
  | request
  deriving DecidableEq, Repr

/-- A deck's current weight (R24), with the filter average A it was derived from (R26, R39). -/
structure CurrentWeight where
  a : Int
  wf : Int
  reported : Int
  isOver : Bool
  isUnder : Bool
  deriving DecidableEq, Repr

/-- A channel of the cell interface (R1 to R8) with its calibration record in effect (R9). `answered`: an accepted
reading has come in the period in progress (R4). -/
structure Channel where
  raw : Option Int
  arrival : Bool
  missed : Nat
  answered : Bool
  lost : Bool
  saturation : Saturation
  history : List Int
  cal : CalRecord
  deriving DecidableEq, Repr

/-- A deck engine: the arithmetic state of chapter 1 and the state items of chapter 2. `window`, `history` hold
oldest first. `empty` is EMPTY as last judged (R35). `zeroLimitAtSample` is ZERO_LIMIT as at the latest sample, which
the status word carries (R91, log entry 13). -/
structure Deck where
  setup : DeckSetup
  setupBad : Bool
  state : DeckState
  excitation : Bool
  service : Bool
  window : List Int
  count : Nat
  history : List Int
  stable : Bool
  current : Option CurrentWeight
  zd : Int
  zeroLimit : Bool
  zeroLimitAtSample : Bool
  powerUpZero : Bool
  wakeCause : WakeCause
  warmUp : Timer
  idle : Timer
  empty : Bool
  wakeMask : WakeMask
  zeroCal : List (ChanId × Int)
  deriving DecidableEq, Repr

/-! ### Captures -/

/-- Kind and owner of a capture (R51): a visit number, or the requesting link. -/
inductive CapOwner where
  | visitIn (v : Nat)
  | visitOut (v : Nat)
  | spot (l : LinkId)
  deriving DecidableEq, Repr

/-- R192 capture kind. -/
inductive CapKind where
  | visitIn | visitOut | spot
  deriving DecidableEq, Repr

def CapOwner.kind : CapOwner → CapKind
  | .visitIn _ => .visitIn
  | .visitOut _ => .visitOut
  | .spot _ => .spot

/-- The failure causes (section 3.5). -/
inductive CapFail where
  | overload | belowMin | under | unstable | vehicleLeft | cellFault | aborted | preempted
  deriving DecidableEq, Repr

/-- A capture result record (R64). -/
structure Weighing where
  deck : DeckId
  kind : CapKind
  weight : Int
  time : Nat
  zeroLimit : Bool
  deriving DecidableEq, Repr

/-- How a capture ends (R64). -/
inductive CapOutcome where
  | done (r : Weighing)
  | failed (why : CapFail)
  deriving DecidableEq, Repr

/-- The stable timeout (R55, R56): RUNNING since a yard time, with its length in ms. -/
inductive StableTimeout where
  | notStarted
  | running (since : Nat) (ms : Nat)
  deriving DecidableEq, Repr

/-- The record of the capture in progress (R51). -/
structure Capture where
  owner : CapOwner
  start : Nat
  timeout : StableTimeout
  deriving DecidableEq, Repr

/-- A last spot result (R67). -/
structure SpotResult where
  link : LinkId
  start : Nat
  outcome : CapOutcome
  deriving DecidableEq, Repr

/-- A capture unit: IDLE when `cap` is absent (R51). -/
structure CaptureUnit where
  cap : Option Capture
  lastSpot : Option SpotResult
  deriving DecidableEq, Repr

/-! ### Lanes -/

/-- A running debounce (R73, R76): the level it runs toward and its length in ms. -/
structure Debounce where
  target : Bool
  ms : Nat
  deriving DecidableEq, Repr

/-- A loop (R73, R74): input pins `level` (true: occupied) and `faultIn`, debounced state, LOOP_FAULT, timer. -/
structure Loop where
  level : Bool
  faultIn : Bool
  occupied : Bool
  fault : Bool
  debounce : Option Debounce
  deriving DecidableEq, Repr

/-- A limit switch (R76): input pin, debounced state, timer. -/
structure Limit where
  level : Bool
  active : Bool
  debounce : Option Debounce
  deriving DecidableEq, Repr

/-- R77; codes of R192 in this order. -/
inductive Barrier where
  | unresolved | down | raising | up | lowering | jammed
  deriving DecidableEq, Repr

/-- R81. -/
inductive JamReason where
  | none | travelRaising | travelLowering | bothLimits
  deriving DecidableEq, Repr

/-- Kind of a raise cause (R78); a VISIT cause bears its visit number. -/
inductive CauseKind where
  | admitted (v : Nat)
  | released (v : Nat)
  | manual
  | safety
  deriving DecidableEq, Repr

/-- R78. -/
inductive CauseStatus where
  | pending | consumed | withdrawn
  deriving DecidableEq, Repr

structure Cause where
  kind : CauseKind
  status : CauseStatus
  deriving DecidableEq, Repr

/-- The kind of a raise cause without its visit number, as the status word carries it (R91). -/
inductive CauseTag where
  | admitted | released | manual | safety
  deriving DecidableEq, Repr

def CauseKind.tag : CauseKind → CauseTag
  | .admitted _ => .admitted
  | .released _ => .released
  | .manual => .manual
  | .safety => .safety

/-- The visit number of a VISIT cause (R78). -/
def CauseKind.visit? : CauseKind → Option Nat
  | .admitted v => some v
  | .released v => some v
  | .manual => none
  | .safety => none

/-- R122; codes of R192. -/
inductive YardMode where
  | opened | closing | closed
  deriving DecidableEq, Repr

/-- The lane status word (R91). -/
structure StatusWord where
  lane : LaneId
  disabled : Bool
  deckState : DeckState
  stable : Bool
  isOver : Bool
  isUnder : Bool
  zeroLimit : Bool
  weight : Option Int
  deckOccupied : Bool
  deckFault : Bool
  clearOccupied : Bool
  clearFault : Bool
  barrier : Barrier
  cause : Option (CauseTag × CauseStatus)
  busy : Bool
  bound : Option Nat
  mode : YardMode
  deriving DecidableEq, Repr

/-- A lane controller (chapter 4's state table). -/
structure Lane where
  setup : LaneSetup
  setupBad : Bool
  deckLoop : Loop
  clearLoop : Loop
  up : Limit
  down : Limit
  barrier : Barrier
  jam : JamReason
  cause : Option Cause
  mark : Bool
  count : Nat
  settled : Bool
  resolution : Timer
  settle : Timer
  travel : Timer
  raiseOut : Bool
  lowerOut : Bool
  goOut : Bool
  word : StatusWord
  deriving DecidableEq, Repr

/-! ### Visits and tickets -/

/-- A registration after conversion to upper case: 1 to 12 characters (00_scope.md 5). -/
abbrev Plate := List Byte

/-- R192. -/
inductive LoadDirection where
  | delivery | collection
  deriving DecidableEq, Repr

/-- R192. -/
inductive TareMode where
  | weighed | stored
  deriving DecidableEq, Repr

/-- R97. -/
inductive VisitState where
  | weighIn | entering | onSite | weighOut | released
  deriving DecidableEq, Repr

/-- The visit flags (R96). -/
structure VisitFlags where
  tareFallback : Bool
  reclassified : Bool
  overstay : Bool
  plateUnchecked : Bool
  zeroLimit : Bool
  restartSeen : Bool
  deriving DecidableEq, Repr

/-- A visit record (R96) with its capture mark (R97). -/
structure Visit where
  number : Nat
  plate : Plate
  account : Option Nat
  stream : Nat
  direction : LoadDirection
  tareMode : TareMode
  storedTare : Option Nat
  entryLane : LaneId
  exitLane : Option LaneId
  first : Option Weighing
  second : Option Weighing
  state : VisitState
  failure : Option CapFail
  ticket : Option Nat
  admitted : Nat
  flags : VisitFlags
  link : LinkId
  capMark : Bool
  deriving DecidableEq, Repr

/-- The yard register (chapter 5). Visits oldest first. -/
structure Register where
  visits : List Visit
  counter : Nat
  bindings : Vector (Option Nat) 4
  mode : YardMode
  deriving DecidableEq, Repr

/-- R146. -/
inductive TicketKind where
  | weighed | storedTare | void
  deriving DecidableEq, Repr

/-- A weighing as a ticket carries it (R146). -/
structure TicketWeighing where
  deck : DeckId
  weight : Int
  time : Nat
  deriving DecidableEq, Repr

/-- A ticket record (R146). -/
structure Ticket where
  number : Nat
  kind : TicketKind
  visit : Nat
  plate : Plate
  stream : Nat
  direction : LoadDirection
  link : LinkId
  account : Option Nat
  first : Option TicketWeighing
  second : Option TicketWeighing
  storedTare : Option Nat
  net : Option Nat
  admitted : Nat
  ticketed : Nat
  flags : VisitFlags
  reversed : Bool
  deriving DecidableEq, Repr

/-- R152. -/
inductive JournalRole where
  | none | follow | hold
  deriving DecidableEq, Repr

/-- R153. -/
inductive Cursor where
  | absent
  | head
  | record (number : Nat)
  deriving DecidableEq, Repr

/-- R165. -/
inductive SlotId where
  | even | odd
  deriving DecidableEq, Repr

/-- One link's place in the journal (R152, R153, R159) and its slot pair (R165). A slot is LINK-owned when it holds
a record and PART-owned when it does not. -/
structure JournalLink where
  role : JournalRole
  cursor : Cursor
  slotCount : Nat
  gap : Nat
  even : Option Ticket
  odd : Option Ticket
  next : SlotId
  halt : Bool
  deriving DecidableEq, Repr

/-- The ticket journal (chapter 7). Records oldest first; an absent counter is unset. -/
structure Journal where
  records : List Ticket
  counter : Option Nat
  low : Bool
  links : Vector JournalLink 3
  deriving DecidableEq, Repr

/-! ### Store -/

/-- A tare entry (R129). -/
structure TareEntry where
  plate : Plate
  tare : Nat
  account : Option Nat
  expiry : Nat
  deriving DecidableEq, Repr

/-- What stands in the store at a tare index, as a scan would find it (R131, R142): the blank pattern, the empty
marker, content whose check word matches, or a mismatch. -/
inductive TareCell where
  | blank
  | emptyMarker
  | content (t : TareEntry)
  | mismatch
  deriving DecidableEq, Repr

/-- R129. -/
inductive TareStatus where
  | empty | valid | invalid
  deriving DecidableEq, Repr

structure TareSlot where
  cell : TareCell
  status : TareStatus
  deriving DecidableEq, Repr

/-- What stands in the store at a setup index, as a scan would find it (R130, R131, R142). -/
inductive SetupCell (α : Type) where
  | blank
  | content (r : α)
  | mismatch
  deriving DecidableEq, Repr

/-- R130. -/
inductive RecordStatus where
  | blank | valid | invalid | suspect
  deriving DecidableEq, Repr

structure SetupSlot (α : Type) where
  cell : SetupCell α
  status : RecordStatus
  deriving DecidableEq, Repr

/-- One write of the engine: a tare index with its new entry (none: an erase), or a setup record (R132). -/
inductive StoreWrite where
  | tare (i : Fin 256) (entry : Option TareEntry)
  | cal (c : ChanId) (r : CalRecord)
  | deck (d : DeckId) (r : DeckSetup)
  | lane (n : LaneId) (r : LaneSetup)
  | yard (r : YardSetup)
  deriving DecidableEq, Repr

/-- The write in flight (R132); `zeroCal` names the deck when the write belongs to a ZERO_CAL (R41). `due` is the
time the write takes, in ms. -/
structure Engine where
  write : StoreWrite
  zeroCal : Option DeckId
  due : Nat
  deriving DecidableEq, Repr

/-- The two areas of the store (R129, R130); codes of R196. -/
inductive StoreArea where
  | tare | setup
  deriving DecidableEq, Repr

/-- The store (chapter 6). The records in effect of channels, decks and lanes stand with those blocks. -/
structure Store where
  tare : Vector TareSlot 256
  cal : Vector (SetupSlot CalRecord) 16
  deck : Vector (SetupSlot DeckSetup) 4
  lane : Vector (SetupSlot LaneSetup) 4
  yard : SetupSlot YardSetup
  yardSetup : YardSetup
  yardBad : Bool
  engine : Option Engine
  lostList : List (StoreArea × Nat)
  deriving DecidableEq, Repr

/-! ### Notices, replies and links -/

/-- The events of a VISIT notice (R173); codes of R196. -/
inductive VisitEvent where
  | admitted | entered | departed | cancelled | voided | reclassified | overstay | removedWithoutPassage
  deriving DecidableEq, Repr

/-- The events of a LANE_EVENT notice (R173). -/
inductive LaneEvent where
  | tailgate
  | jammed
  | loopFault (loop : LoopId)
  deriving DecidableEq, Repr

/-- A notice: a kind and its reference (R173). -/
inductive Notice where
  | laneStatus (w : StatusWord)
  | capture (deck : DeckId) (owner : CapOwner) (outcome : CapOutcome)
  | visit (number : Nat) (event : VisitEvent)
  | ticket (slot : SlotId) (number : Nat)
  | journalLow (margin : Int) (oldestHeld : Option Nat)
  | journalGap (tally : Nat) (first : Nat)
  | storeDone (area : StoreArea) (index : Nat)
  | storeLost (area : StoreArea) (index : Nat)
  | yard (mode : YardMode)
  | laneEvent (lane : LaneId) (event : LaneEvent)
  | overrun
  deriving DecidableEq, Repr

/-- The status codes of R191, in its order. -/
inductive Status where
  | ok | accepted | notPermitted | badRequest | busy | starting | laneDisabled | wrongLane | noVehicle | lanePending
  | deckBusy | deckNotReady | registerFull | journalFull | duplicate | noSuchVisit | wrongState | alreadyTicketed
  | mismatch | yardClosing | yardClosed | storeBusy | storeFull | notFound | calLocked | unstable | zeroRange
  | setupRange | notOwned | outOfOrder | clockUnset
  deriving DecidableEq, Repr

/-- A reply (R186, R191): the tag and kind of the frame answered, the status, the data bytes. -/
structure Reply where
  tag : Byte
  code : Byte
  status : Status
  data : List Byte
  deriving DecidableEq, Repr

/-- The frame a transmitter is sending (R180). -/
inductive TxFrame where
  | reply (r : Reply)
  | notice (n : Notice)
  deriving DecidableEq, Repr

/-- A link's strapped role (R182). -/
inductive Role where
  | gate | office | kiosk | disabled
  deriving DecidableEq, Repr

/-- The pending request of a link (R185); `answered` once its reply has become waiting. -/
structure PendingRequest where
  tag : Byte
  code : Byte
  answered : Bool
  deriving DecidableEq, Repr

/-- A station link with its notice queue (chapters 8 and 9). `rx` is absent while HUNTING. -/
structure LinkState where
  speed : BitVec 2
  role : Role
  rx : Option (List Byte)
  request : Option PendingRequest
  replies : List Reply
  tx : Option TxFrame
  queue : List Notice
  mask : BitVec 8
  overrun : Bool
  deriving DecidableEq, Repr

/-! ### Clock and start-up -/

/-- The yard clock (R197). -/
structure Clock where
  time : Nat
  isSet : Bool
  subSecond : BitVec 15
  deriving DecidableEq, Repr

/-- R202; codes of R199 in this order. -/
inductive ResetKind where
  | powerOn | resetPin | restart
  deriving DecidableEq, Repr

/-- R199, in this order. -/
inductive CheckResult where
  | notChecked | valid | cleared
  deriving DecidableEq, Repr

/-- R204, R205. -/
inductive Phase where
  | starting | running
  deriving DecidableEq, Repr

/-- Supplies, reset input, CALEN pin and start-up state (chapter 10). `restartDue`: the ACCEPTED reply to a RESTART
has been sent to its end (R203). -/
structure Power where
  main : Bool
  resetPin : Bool
  calen : Bool
  phase : Phase
  backupValid : Bool
  checkPending : Bool
  lastKind : ResetKind
  lastCheck : CheckResult
  restartDue : Bool
  deriving DecidableEq, Repr

end Sys2Proof.Machine
end

