-- ==== Sys2Proof/Machine/State.lean ====
section
/-! DEFINITION. The state of the part, the reasons a step can stop, and the state right after reset. -/

namespace Sys2Proof.Machine

/-- Why the machine would stop with a fault: no rule of the spec names one, so there is none (INVENTORY.md,
Faults). Nobody raises one. -/
inductive Fault where
  deriving DecidableEq, Repr

/-- Why a command would be refused. -/
inductive Refusal where
  /-- Raised by an arm of exec for a command that has no meaning yet; safe: nothing is claimed of it. -/
  | notModelled (mnemonic : String)
  deriving DecidableEq, Repr

/-- Everything the spec gives the part, and the queue of commands waiting. -/
structure State where
  channels : Vector Channel 16
  period : Timer
  decks : Vector Deck 4
  units : Vector CaptureUnit 4
  lanes : Vector Lane 4
  register : Register
  store : Store
  journal : Journal
  links : Vector LinkState 3
  clock : Clock
  power : Power
  /-- The commands waiting, first in, first out. -/
  pending : List Instr
  /-- The model's own: which free value comes next (log entry 1). -/
  freeIndex : Nat
  deriving DecidableEq, Repr

/-! ### The state right after reset

The end of a POWER_ON start-up that found the backup domain invalid, with a store never written and every yard input
at rest (log entry 2). -/

/-- R8; the record in effect is the default of a BLANK record (R142). -/
def Channel.reset : Channel := ⟨none, false, 0, false, false, .none, [], CalRecord.default⟩

/-- R27, R50: no members, so UNUSED. -/
def Deck.reset : Deck :=
  { setup := DeckSetup.default, setupBad := false, state := .unused, excitation := false, service := false
    window := [], count := 0, history := [], stable := false, current := none, zd := 0, zeroLimit := false
    zeroLimitAtSample := false, powerUpZero := false, wakeCause := .none, warmUp := none, idle := none
    empty := false, wakeMask := LaneSetup.default.wake, zeroCal := [] }

/-- R69. -/
def CaptureUnit.reset : CaptureUnit := ⟨none, none⟩

/-- R87: nothing on the loop. -/
def Loop.reset : Loop := ⟨false, false, false, false, none⟩

/-- R87: the limit inactive. -/
def Limit.reset : Limit := ⟨false, false, none⟩

/-- R91: the word a lane produces when it comes up after such a start-up. -/
def StatusWord.reset (n : LaneId) : StatusWord :=
  { lane := n, disabled := true, deckState := .unused, stable := false, isOver := false, isUnder := false
    zeroLimit := false, weight := none, deckOccupied := false, deckFault := false, clearOccupied := false
    clearFault := false, barrier := .unresolved, cause := none, busy := false, bound := none, mode := .closed }

/-- R87, R93: resolution and settle timers started at the come-up. -/
def Lane.reset (n : LaneId) : Lane :=
  { setup := LaneSetup.default, setupBad := false, deckLoop := Loop.reset, clearLoop := Loop.reset
    up := Limit.reset, down := Limit.reset, barrier := .unresolved, jam := .none, cause := none, mark := false
    count := 0, settled := false, resolution := some 300, settle := some 1000, travel := none, raiseOut := false
    lowerOut := false, goOut := false, word := StatusWord.reset n }

/-- R128, R201. -/
def Register.reset : Register := ⟨[], 1, #v[none, none, none, none], .closed⟩

/-- R142: the blank pattern everywhere. -/
def Store.reset : Store :=
  { tare := Vector.replicate 256 ⟨.blank, .empty⟩, cal := Vector.replicate 16 ⟨.blank, .blank⟩
    deck := Vector.replicate 4 ⟨.blank, .blank⟩, lane := Vector.replicate 4 ⟨.blank, .blank⟩
    yard := ⟨.blank, .blank⟩, yardSetup := YardSetup.default, yardBad := false, engine := none, lostList := [] }

/-- R162, R172: role NONE, both slots PART-owned. -/
def JournalLink.reset : JournalLink := ⟨.none, .absent, 0, 0, none, none, .even, false⟩

/-- R162. -/
def Journal.reset : Journal := ⟨[], none, false, Vector.replicate 3 JournalLink.reset⟩

/-- A link whose queue took nothing at the come-up (R181, R188). -/
def LinkState.quiet (role : Role) (mask : BitVec 8) : LinkState :=
  ⟨0, role, none, none, [], none, [], mask, false⟩

/-- A link subscribed to LANE_STATUS: it is sending the word of L0, those of L1 to L3 wait (R91, R180). -/
def LinkState.sendingWords (role : Role) (mask : BitVec 8) : LinkState :=
  { LinkState.quiet role mask with
    tx := some (.notice (.laneStatus (StatusWord.reset 0)))
    queue := [.laneStatus (StatusWord.reset 1), .laneStatus (StatusWord.reset 2), .laneStatus (StatusWord.reset 3)] }

/-- R207 with the clock unset, start-up ended (R205). -/
def Power.reset : Power :=
  { main := true, resetPin := false, calen := false, phase := .running, backupValid := true, checkPending := false
    lastKind := .powerOn, lastCheck := .cleared, restartDue := false }

/-- The part right after reset. -/
def State.reset : State :=
  { channels := Vector.replicate 16 Channel.reset
    period := some 10000
    decks := Vector.replicate 4 Deck.reset
    units := Vector.replicate 4 CaptureUnit.reset
    lanes := #v[Lane.reset 0, Lane.reset 1, Lane.reset 2, Lane.reset 3]
    register := Register.reset
    store := Store.reset
    journal := Journal.reset
    links := #v[LinkState.sendingWords .gate 0x67, LinkState.sendingWords .office 0x7F, LinkState.quiet .kiosk 0x44]
    clock := ⟨0, false, 0⟩
    power := Power.reset
    pending := []
    freeIndex := 0 }

end Sys2Proof.Machine
end

