-- ==== Sys2Proof/Machine/Ops.lean ====
section
/-! DEFINITION. The operations every block shares: reading and replacing one channel, deck, unit, lane or link; the
notice queues and transmitters of the links (chapters 8 and 9); the counts of the register. -/

namespace Sys2Proof.Machine

/-! ### One element of a bank -/

/-- A bank with one element replaced. -/
def setAt {α : Type} {n : Nat} (v : Vector α n) (i : Fin n) (a : α) : Vector α n := v.set i.val a i.isLt

def State.chan (s : State) (c : ChanId) : Channel := s.channels.get c
def State.deck (s : State) (d : DeckId) : Deck := s.decks.get d
def State.unit (s : State) (d : DeckId) : CaptureUnit := s.units.get d
def State.lane (s : State) (n : LaneId) : Lane := s.lanes.get n
def State.link (s : State) (l : LinkId) : LinkState := s.links.get l
def State.jlink (s : State) (l : LinkId) : JournalLink := s.journal.links.get l

def State.setChan (s : State) (c : ChanId) (k : Channel) : State := { s with channels := setAt s.channels c k }
def State.setDeck (s : State) (d : DeckId) (k : Deck) : State := { s with decks := setAt s.decks d k }
def State.setUnit (s : State) (d : DeckId) (k : CaptureUnit) : State := { s with units := setAt s.units d k }
def State.setLane (s : State) (n : LaneId) (k : Lane) : State := { s with lanes := setAt s.lanes n k }
def State.setLink (s : State) (l : LinkId) (k : LinkState) : State := { s with links := setAt s.links l k }
def State.setJlink (s : State) (l : LinkId) (k : JournalLink) : State :=
  { s with journal := { s.journal with links := setAt s.journal.links l k } }

def allLinks : List LinkId := [0, 1, 2]
def allLanes : List LaneId := [0, 1, 2, 3]
def allDecks : List DeckId := [0, 1, 2, 3]
def allChans : List ChanId := List.finRange 16

/-! ### What the part takes (R200, R202, R205) -/

/-- Events are taken: the main supply is there and the reset input is not asserted. -/
def State.taking (s : State) : Bool := s.power.main && !s.power.resetPin

/-- Start-up has ended, so the yard's events are taken. -/
def State.up (s : State) : Bool := s.taking && s.power.phase == .running

/-- A yard or timer event: it acts while the part is up, and is not taken otherwise (R200, R202, R204). -/
def whenUp (f : State → State) (s : State) : Host.Outcome State Fault Refusal :=
  .next (if s.up then f s else s)

/-! ### Notice queues and transmitters -/

/-- The position of a notice's kind in the subscription mask (R192); none for TICKET and OVERRUN (R175). -/
def Notice.maskBit : Notice → Option Nat
  | .laneStatus _ => some 0
  | .capture _ _ _ => some 1
  | .visit _ _ => some 2
  | .ticket _ _ => none
  | .journalLow _ _ => some 3
  | .journalGap _ _ => some 3
  | .storeDone _ _ => some 4
  | .storeLost _ _ => some 4
  | .yard _ => some 5
  | .laneEvent _ _ => some 6
  | .overrun => none

/-- R174: whether the link's queue takes an offered notice. -/
def LinkState.takes (k : LinkState) (n : Notice) : Bool :=
  k.role != .disabled &&
    match n.maskBit with
    | none => true
    | some b => k.mask.getLsbD b

/-- R177: the queue with the word merged into the LANE_STATUS notice queued for its lane; none if there is none. -/
def mergeWord (w : StatusWord) : List Notice → Option (List Notice)
  | [] => none
  | .laneStatus w' :: rest =>
    if w'.lane = w.lane then some (.laneStatus w :: rest) else (mergeWord w rest).map (.laneStatus w' :: ·)
  | n :: rest => (mergeWord w rest).map (n :: ·)

/-- R178: a notice joins at the newest end, or is lost and the overrun mark set. -/
def LinkState.join (k : LinkState) (n : Notice) : LinkState :=
  if k.queue.length < 24 then { k with queue := k.queue ++ [n] }
  else { k with overrun := if k.queue.getLast? = some .overrun then k.overrun else true }

/-- R177, R178. -/
def LinkState.enqueue (k : LinkState) (n : Notice) : LinkState :=
  match n with
  | .laneStatus w =>
    match mergeWord w k.queue with
    | some q => { k with queue := q }
    | none => k.join n
  | _ => k.join n

/-- A request has been taken and its reply is not yet waiting (R185). -/
def LinkState.awaiting (k : LinkState) : Bool :=
  match k.request with
  | some r => !r.answered
  | none => false

/-- R179, R180: an idle transmitter starts the first reply waiting, else the oldest notice; the place that frees is
taken by OVERRUN while the mark is set. While a request is being handled its reply goes first (R180). -/
def LinkState.kick (k : LinkState) : LinkState :=
  if k.tx.isSome || k.awaiting then k
  else
    match k.replies with
    | r :: rs => { k with tx := some (.reply r), replies := rs }
    | [] =>
      match k.queue with
      | n :: q =>
        { k with tx := some (.notice n), queue := if k.overrun then q ++ [.overrun] else q, overrun := false }
      | [] => k

/-- A notice offered to one queue (R174). -/
def LinkState.offer (k : LinkState) (n : Notice) : LinkState :=
  if k.takes n then (k.enqueue n).kick else k

/-- A notice offered to every link. -/
def offerAll (ks : Vector LinkState 3) (n : Notice) : Vector LinkState 3 := ks.map (·.offer n)

/-- A notice offered to one link. -/
def offerOne (ks : Vector LinkState 3) (l : LinkId) (n : Notice) : Vector LinkState 3 :=
  setAt ks l ((ks.get l).offer n)

/-- Notices in order, each to one link. -/
def offerEach (ks : Vector LinkState 3) (ns : List (LinkId × Notice)) : Vector LinkState 3 :=
  ns.foldl (fun ks p => offerOne ks p.1 p.2) ks

def State.offerAll (s : State) (n : Notice) : State := { s with links := Machine.offerAll s.links n }
def State.offerOne (s : State) (l : LinkId) (n : Notice) : State := { s with links := Machine.offerOne s.links l n }
def State.offerEach (s : State) (ns : List (LinkId × Notice)) : State :=
  { s with links := Machine.offerEach s.links ns }

/-! ### The register's records -/

/-- The visit that bears a number. -/
def Register.find (r : Register) (v : Nat) : Option Visit := r.visits.find? (fun x => x.number == v)

/-- The visits with those of one number changed. -/
def Register.update (r : Register) (v : Nat) (f : Visit → Visit) : Register :=
  { r with visits := r.visits.map (fun x => if x.number == v then f x else x) }

/-- R98: a lane bound to a visit. -/
def Register.bind (r : Register) (n : LaneId) (v : Nat) : Register :=
  { r with bindings := setAt r.bindings n (some v) }

/-- R98: every binding of a visit ended. -/
def Register.unbind (r : Register) (v : Nat) : Register :=
  { r with bindings := r.bindings.map (fun b => if b = some v then none else b) }

/-- R94, R98: a visit leaves, and its binding ends. -/
def Register.leave (r : Register) (v : Nat) : Register :=
  { r.unbind v with visits := r.visits.filter (fun x => x.number != v) }

/-- The visit a lane is bound to (R98). -/
def State.bound (s : State) (n : LaneId) : Option Nat := s.register.bindings.get n

/-- U: the visits not in RELEASED (00_scope.md 6). -/
def Register.unreleased (r : Register) : Nat := r.visits.countP (fun x => x.state != .released)

/-! ### Times -/

/-- The length of a sampling period in microseconds (R3). -/
def periodLength (p : Nat) : Nat := 1250 * 2 ^ p

/-- The day number of a yard time (00_scope.md 5). -/
def dayNumber (t : Nat) : Nat := t / 86400

end Sys2Proof.Machine
end

