-- ==== Sys2Proof/Machine/Flags.lean ====
section
/-! DEFINITION. The arithmetic of the decks and the flags drawn from it: stages 1 to 5 (R16 to R22), stability (R34),
the limits (R14), zero moves (R36 to R38), and the flags other blocks derive (R5, R35, R72, R91). -/

namespace Sys2Proof.Machine

/-- A division that rounds half away from zero (00_scope.md 5). -/
def roundDiv (a : Int) (b : Nat) : Int :=
  if a < 0 then -(((2 * a.natAbs + b) / (2 * b) : Nat) : Int) else (((2 * a.natAbs + b) / (2 * b) : Nat) : Int)

/-! ### Limits (R14) -/

/-- Minimum visit capture, kg. -/
def DeckSetup.minCapture (u : DeckSetup) : Int := 20 * u.e

/-- Overload limit, kg. -/
def DeckSetup.overLimit (u : DeckSetup) : Int := u.max + 9 * u.e

/-- Underload limit, kg. -/
def DeckSetup.underLimit (u : DeckSetup) : Int := -(20 * u.e)

/-- Zero limit and power-up zero band, g. -/
def DeckSetup.zeroLimit (u : DeckSetup) : Int := u.max * 20

/-- Zero-tracking band, g. -/
def DeckSetup.trackBand (u : DeckSetup) : Int := u.e * 500

/-- A value held within plus and minus a limit. -/
def clampTo (limit x : Int) : Int := if x > limit then limit else if x < -limit then -limit else x

/-! ### Stages 1 to 5 -/

/-- R16. -/
def contribution (raw : Int) (c : CalRecord) : Int := roundDiv ((raw - c.zero) * c.span) 65536

/-- R17. -/
def deckSum (members : List Channel) : Int := (members.map (fun ch => contribution (ch.raw.getD 0) ch.cal)).sum

/-- R18: the window with a new sum, at most 2^k of them. -/
def pushWindow (k : Nat) (window : List Int) (g : Int) : List Int :=
  (if window.length < 2 ^ k then window else window.drop (window.length + 1 - 2 ^ k)) ++ [g]

/-- R18: the filter average. -/
def average (window : List Int) : Int := roundDiv window.sum window.length

/-- R20. -/
def indicated (e : Nat) (wf : Int) : Int := roundDiv wf (e * 1000) * e

/-- R21. -/
def isOverload (u : DeckSetup) (wi : Int) (members : List Channel) : Bool :=
  decide (wi > u.overLimit) || members.any (fun ch => ch.saturation == .positive)

/-- R21: OVER takes precedence. -/
def isUnderload (u : DeckSetup) (wi : Int) (members : List Channel) : Bool :=
  (decide (wi < u.underLimit) || members.any (fun ch => ch.saturation == .negative)) && !isOverload u wi members

/-- R22. -/
def reportedWeight (u : DeckSetup) (wi : Int) (isOver isUnder : Bool) : Int :=
  if isOver then u.overLimit else if isUnder then u.underLimit else wi

/-- R19 to R22: the current weight of a filter average. -/
def weigh (u : DeckSetup) (zd : Int) (members : List Channel) (a : Int) : CurrentWeight :=
  let wf := a - zd
  let wi := indicated u.e wf
  let o := isOverload u wi members
  let n := isUnderload u wi members
  { a := a, wf := wf, reported := reportedWeight u wi o n, isOver := o, isUnder := n }

/-! ### Stability (R34) -/

/-- The newest n of a list that stands oldest first. -/
def newest {α : Type} (n : Nat) (l : List α) : List α := l.drop (l.length - n)

/-- A list that stands oldest first with a new value, at most n of them. -/
def pushBounded {α : Type} (n : Nat) (l : List α) (a : α) : List α := newest n (l ++ [a])

/-- The largest minus the smallest. -/
def spread : List Int → Int
  | [] => 0
  | x :: l => l.foldl max x - l.foldl min x

/-- R34: the judgment on the history and the count after the sample. -/
def isStable (u : DeckSetup) (count : Nat) (history : List Int) : Bool :=
  decide (u.m ≤ count) && decide (spread (newest u.m history) ≤ u.b * u.e * 1000)

/-- R18, R34: a sample taken by the deck, with the readings its members give. Its ZERO_LIMIT is that before the zero is
moved at it: by R25 for a tracking step, by log entry 38 for the power-up zero. -/
def Deck.sample (k : Deck) (members : List Channel) : Deck :=
  let window := pushWindow k.setup.k k.window (deckSum members)
  let w := weigh k.setup k.zd members (average window)
  let count := min (k.count + 1) 64
  let history := pushBounded 64 k.history w.wf
  { k with
    window := window, count := count, history := history, stable := isStable k.setup count history
    current := some w, zeroLimitAtSample := k.zeroLimit }

/-! ### Zero -/

/-- A new Zd: every W_f of the history moves with it (R34). -/
def Deck.moveZero (k : Deck) (zd : Int) (limit : Bool) : Deck :=
  { k with zd := zd, zeroLimit := limit, history := k.history.map (fun w => w - (zd - k.zd)) }

/-- R37, R38: what the zero does at a sample just formed on an EMPTY deck. -/
def Deck.zeroStep (k : Deck) : Deck :=
  match k.current with
  | none => k
  | some w =>
    if k.stable then
      if k.powerUpZero then
        if w.a.natAbs ≤ k.setup.zeroLimit then { k.moveZero w.a false with powerUpZero := false }
        else { k with zeroLimit := true, powerUpZero := false }
      else if w.wf.natAbs ≤ k.setup.trackBand then
        let zd := clampTo k.setup.zeroLimit (k.zd + w.wf)
        k.moveZero zd (decide (zd ≠ k.zd + w.wf))
      else k
    else k

/-! ### What other blocks derive -/

/-- R28: the states with excitation on, in which members are supervised (R5). -/
def DeckState.excited : DeckState → Bool
  | .unused => false
  | .sleep => false
  | .warming => true
  | .active => true
  | .fault => true
  | .service => true

/-- R52: the states in which a capture can be asked for. -/
def DeckState.capturable : DeckState → Bool
  | .unused => false
  | .sleep => true
  | .warming => true
  | .active => true
  | .fault => false
  | .service => false

/-- R15: the states in which samples form. -/
def DeckState.sampling : DeckState → Bool
  | .unused => false
  | .sleep => false
  | .warming => true
  | .active => true
  | .fault => false
  | .service => true

/-- Whether a channel is a member of a deck (R9). -/
def Channel.memberOf (ch : Channel) (d : DeckId) : Bool := ch.cal.deck == some d

/-- The members of a deck, in channel order (R9). -/
def State.members (s : State) (d : DeckId) : List Channel := s.channels.toList.filter (·.memberOf d)

/-- The members of a deck by number. -/
def State.memberIds (s : State) (d : DeckId) : List ChanId := allChans.filter (fun c => (s.chan c).memberOf d)

/-- R5. -/
def State.supervised (s : State) (ch : Channel) : Bool :=
  match ch.cal.deck with
  | none => false
  | some d => (s.deck d).state.excited

/-- A capture is waiting (R51). -/
def CaptureUnit.busy (u : CaptureUnit) : Bool := u.cap.isSome

/-- R35. -/
def State.isEmpty (s : State) (d : DeckId) : Bool :=
  (s.deck d).state == .active && !(s.lane d).deckLoop.occupied && !(s.unit d).busy

/-- R72. -/
def State.disabled (s : State) (n : LaneId) : Bool :=
  !(s.lane n).setup.enabled || (s.lane n).setupBad || (s.deck n).state == .unused

/-- The cause is PENDING (R78). -/
def Cause.isPending (c : Cause) : Bool := c.status == .pending

/-- A VISIT cause (R78). -/
def Cause.isVisit (c : Cause) : Bool := c.kind.visit?.isSome

/-- Whether the lane's cause is PENDING and passes a test. -/
def Lane.pendingCause (k : Lane) (p : Cause → Bool) : Bool :=
  match k.cause with
  | some c => c.isPending && p c
  | none => false

/-- R77: the outputs of the barrier state and the cause. -/
def Lane.withOutputs (k : Lane) : Lane :=
  { k with
    raiseOut := k.barrier == .raising
    lowerOut := k.barrier == .lowering
    goOut := (k.barrier == .raising || k.barrier == .up) && k.pendingCause Cause.isVisit }

/-- R91: the status word of a lane as its fields stand; OVER, UNDER and ZERO_LIMIT as at the latest sample. -/
def statusWord (s : State) (n : LaneId) : StatusWord :=
  let k := s.lane n
  let d := s.deck n
  { lane := n
    disabled := s.disabled n
    deckState := d.state
    stable := d.stable && d.current.isSome
    isOver := d.current.any (·.isOver)
    isUnder := d.current.any (·.isUnder)
    zeroLimit := d.zeroLimitAtSample
    weight := d.current.map (·.reported)
    deckOccupied := k.deckLoop.occupied
    deckFault := k.deckLoop.fault
    clearOccupied := k.clearLoop.occupied
    clearFault := k.clearLoop.fault
    barrier := k.barrier
    cause := k.cause.map (fun c => (c.kind.tag, c.status))
    busy := (s.unit n).busy
    bound := s.bound n
    mode := s.register.mode }

end Sys2Proof.Machine
end

