-- ==== Sys2Proof/Machine/Encode.lean ====
section
/-! DEFINITION. What stands on a line: field encodings (R192), status codes (R191), the layouts of records and
notices (R193 to R196), frames and their CRC (R183), and the data of the reads (R26, R49, R68, R92, R135, R141, R161).
The codes and widths the spec gives by a general rule only are listed in log entry 19. -/

namespace Sys2Proof.Machine

/-! ### Numbers (R192: high byte first) -/

def be1 (x : Nat) : List Byte := [BitVec.ofNat 8 x]
def be2 (x : Nat) : List Byte := [BitVec.ofNat 8 (x / 256), BitVec.ofNat 8 x]
def be3 (x : Nat) : List Byte := BitVec.ofNat 8 (x / 65536) :: be2 x
def be4 (x : Nat) : List Byte := BitVec.ofNat 8 (x / 16777216) :: be3 x

/-- A signed number in two's complement, 4 bytes. -/
def signed4 (x : Int) : List Byte := be4 (BitVec.ofInt 32 x).toNat

/-- A 32-bit word as it is. -/
def word4 (x : BitVec 32) : List Byte := be4 x.toNat

/-- yes / no, set / clear. -/
def yesNo (b : Bool) : List Byte := be1 b.toNat

/-- A weight, or the absent value. -/
def weight4 : Option Int → List Byte
  | none => be4 0x80000000
  | some w => signed4 w

def kilograms4 (w : Option Nat) : List Byte := weight4 (w.map Int.ofNat)

/-- A number whose absent value is 0. -/
def orZero (x : Option Nat) : Nat := x.getD 0

/-- A registration: left-aligned, padded with 0x00. -/
def plate12 (p : Plate) : List Byte := (p ++ List.replicate 12 0).take 12

/-- A channel set. -/
def channelSet (cs : List ChanId) : List Byte := be2 ((cs.map (fun c => 2 ^ c.val)).sum)

/-! ### Codes (R191, R192, R196) -/

def Status.code : Status → Byte
  | .ok => 0x00 | .accepted => 0x01 | .notPermitted => 0x10 | .badRequest => 0x11 | .busy => 0x12
  | .starting => 0x13 | .laneDisabled => 0x14 | .wrongLane => 0x15 | .noVehicle => 0x16 | .lanePending => 0x17
  | .deckBusy => 0x18 | .deckNotReady => 0x19 | .registerFull => 0x1A | .journalFull => 0x1B | .duplicate => 0x1C
  | .noSuchVisit => 0x1D | .wrongState => 0x1E | .alreadyTicketed => 0x1F | .mismatch => 0x20
  | .yardClosing => 0x21 | .yardClosed => 0x22 | .storeBusy => 0x23 | .storeFull => 0x24 | .notFound => 0x25
  | .calLocked => 0x26 | .unstable => 0x27 | .zeroRange => 0x28 | .setupRange => 0x29 | .notOwned => 0x2A
  | .outOfOrder => 0x2B | .clockUnset => 0x2C

def Saturation.code : Saturation → Nat
  | .none => 0 | .positive => 1 | .negative => 2

def DeckState.code : DeckState → Nat
  | .unused => 0 | .sleep => 1 | .warming => 2 | .active => 3 | .fault => 4 | .service => 5

def Barrier.code : Barrier → Nat
  | .unresolved => 0 | .down => 1 | .raising => 2 | .up => 3 | .lowering => 4 | .jammed => 5

def JamReason.code : JamReason → Nat
  | .none => 0 | .travelRaising => 1 | .travelLowering => 2 | .bothLimits => 3

def CauseTag.code : CauseTag → Nat
  | .admitted => 1 | .released => 2 | .manual => 3 | .safety => 4

def CauseStatus.code : CauseStatus → Nat
  | .pending => 1 | .consumed => 2 | .withdrawn => 3

def YardMode.code : YardMode → Nat
  | .opened => 1 | .closing => 2 | .closed => 3

def VisitState.code : VisitState → Nat
  | .weighIn => 1 | .entering => 2 | .onSite => 3 | .weighOut => 4 | .released => 5

def CapKind.code : CapKind → Nat
  | .visitIn => 1 | .visitOut => 2 | .spot => 3

def CapFail.code : CapFail → Nat
  | .overload => 1 | .belowMin => 2 | .under => 3 | .unstable => 4 | .vehicleLeft => 5 | .cellFault => 6
  | .aborted => 7 | .preempted => 8

def CapOutcome.code : CapOutcome → Nat
  | .done _ => 0
  | .failed f => f.code

def TicketKind.code : TicketKind → Nat
  | .weighed => 1 | .storedTare => 2 | .void => 3

def JournalRole.code : JournalRole → Nat
  | .none => 0 | .follow => 1 | .hold => 2

def SlotId.code : SlotId → Nat
  | .even => 0 | .odd => 1

def LoadDirection.code : LoadDirection → Nat
  | .delivery => 1 | .collection => 2

def TareMode.code : TareMode → Nat
  | .weighed => 1 | .stored => 2

def loopCode : LoopId → Nat
  | .deck => 0 | .clear => 1

def StoreArea.code : StoreArea → Nat
  | .tare => 0 | .setup => 1

def VisitEvent.code : VisitEvent → Nat
  | .admitted => 1 | .entered => 2 | .departed => 3 | .cancelled => 4 | .voided => 5 | .reclassified => 6
  | .overstay => 7 | .removedWithoutPassage => 8

def Direction.code : Direction → Nat
  | .entry => 0 | .exit => 1

def TareStatus.code : TareStatus → Nat
  | .empty => 0 | .valid => 1 | .invalid => 2

def RecordStatus.code : RecordStatus → Nat
  | .blank => 0 | .valid => 1 | .invalid => 2 | .suspect => 3

/-- R206. -/
def Role.code : Role → Nat
  | .gate => 0 | .office => 1 | .kiosk => 2 | .disabled => 3

/-- R199. -/
def ResetKind.code : ResetKind → Nat
  | .powerOn => 0 | .resetPin => 1 | .restart => 2

/-- R199. -/
def CheckResult.code : CheckResult → Nat
  | .notChecked => 0 | .valid => 1 | .cleared => 2

/-! ### Records -/

/-- The flags of a visit or a ticket (R192); a visit's bit 0 is always clear (R194). -/
def flags2 (reversed : Bool) (f : VisitFlags) : List Byte :=
  be2 (reversed.toNat + 2 * f.tareFallback.toNat + 4 * f.reclassified.toNat + 8 * f.overstay.toNat +
    16 * f.plateUnchecked.toNat + 32 * f.zeroLimit.toNat + 64 * f.restartSeen.toNat)

/-- R193: a weighing of a ticket, 9 bytes. -/
def TicketWeighing.bytes : Option TicketWeighing → List Byte
  | none => be1 0xFF ++ be4 0x80000000 ++ be4 0
  | some w => be1 w.deck.val ++ signed4 w.weight ++ be4 w.time

/-- R194: a weighing of a visit, 10 bytes; time and ZERO_LIMIT of an absent one are 0 (log entry 35). -/
def Weighing.bytes : Option Weighing → List Byte
  | none => be1 0xFF ++ be4 0x80000000 ++ be4 0 ++ be1 0
  | some w => be1 w.deck.val ++ signed4 w.weight ++ be4 w.time ++ yesNo w.zeroLimit

/-- R193, 61 bytes. -/
def Ticket.bytes (t : Ticket) : List Byte :=
  be4 t.number ++ be1 t.kind.code ++ be2 t.visit ++ plate12 t.plate ++ be1 t.stream ++ be1 t.direction.code ++
  be1 t.link.val ++ be3 (orZero t.account) ++ TicketWeighing.bytes t.first ++ TicketWeighing.bytes t.second ++
  kilograms4 t.storedTare ++ kilograms4 t.net ++ be4 t.admitted ++ be4 t.ticketed ++ flags2 t.reversed t.flags

/-- The number of a lane, 0xFF for none. -/
def laneOr (n : Option LaneId) : List Byte :=
  match n with
  | none => be1 0xFF
  | some n => be1 n.val

/-- R194, 59 bytes. -/
def Visit.bytes (v : Visit) : List Byte :=
  be2 v.number ++ plate12 v.plate ++ be3 (orZero v.account) ++ be1 v.stream ++ be1 v.direction.code ++
  be1 v.tareMode.code ++ kilograms4 v.storedTare ++ be1 v.entryLane.val ++ laneOr v.exitLane ++
  Weighing.bytes v.first ++ Weighing.bytes v.second ++ be1 v.state.code ++
  be1 (orZero (v.failure.map CapFail.code)) ++ be4 (orZero v.ticket) ++ be4 v.admitted ++ flags2 false v.flags ++
  be1 v.link.val

/-- Kind and status of a raise cause, 0 and 0 for none. -/
def causeCodes (c : Option (CauseTag × CauseStatus)) : List Byte :=
  match c with
  | none => be1 0 ++ be1 0
  | some (k, st) => be1 k.code ++ be1 st.code

/-- R195, 14 bytes. -/
def StatusWord.bytes (w : StatusWord) : List Byte :=
  be1 w.lane.val ++ be1 w.deckState.code ++
  be1 (w.disabled.toNat + 2 * w.stable.toNat + 4 * w.isOver.toNat + 8 * w.isUnder.toNat + 16 * w.zeroLimit.toNat +
    32 * w.busy.toNat) ++
  weight4 w.weight ++
  be1 (w.deckOccupied.toNat + 2 * w.deckFault.toNat + 4 * w.clearOccupied.toNat + 8 * w.clearFault.toNat) ++
  be1 w.barrier.code ++ causeCodes w.cause ++ be2 (orZero w.bound) ++ be1 w.mode.code

/-- Owner of a capture in a CAPTURE notice (R196). -/
def CapOwner.bytes : CapOwner → List Byte
  | .visitIn v => be2 v
  | .visitOut v => be2 v
  | .spot l => be1 0 ++ be1 l.val

/-- Weight, time and ZERO_LIMIT of an outcome (R190, R196). -/
def CapOutcome.bytes : CapOutcome → List Byte
  | .done r => signed4 r.weight ++ be4 r.time ++ yesNo r.zeroLimit
  | .failed _ => be4 0x80000000 ++ be4 0 ++ be1 0

/-! ### Notices and frames -/

/-- R196: the kind byte. -/
def Notice.kindByte : Notice → Byte
  | .laneStatus _ => 0x41
  | .capture _ _ _ => 0x42
  | .visit _ _ => 0x43
  | .ticket _ _ => 0x44
  | .journalLow _ _ => 0x45
  | .journalGap _ _ => 0x45
  | .storeDone _ _ => 0x46
  | .storeLost _ _ => 0x46
  | .yard _ => 0x47
  | .laneEvent _ _ => 0x48
  | .overrun => 0x49

/-- R196: the event and loop bytes of a LANE_EVENT. -/
def LaneEvent.bytes : LaneEvent → List Byte
  | .tailgate => be1 1 ++ be1 0xFF
  | .jammed => be1 2 ++ be1 0xFF
  | .loopFault lp => be1 3 ++ be1 (loopCode lp)

/-- R196: the payload. -/
def Notice.payload : Notice → List Byte
  | .laneStatus w => w.bytes
  | .capture d o r => be1 d.val ++ be1 o.kind.code ++ o.bytes ++ be1 r.code ++ r.bytes
  | .visit v e => be2 v ++ be1 e.code
  | .ticket sl t => be1 sl.code ++ be4 t
  | .journalLow m h => be1 1 ++ be2 (BitVec.ofInt 16 m).toNat ++ be4 (orZero h)
  | .journalGap g t => be1 2 ++ be2 g ++ be4 t
  | .storeDone a i => be1 1 ++ be1 a.code ++ be1 i
  | .storeLost a i => be1 2 ++ be1 a.code ++ be1 i
  | .yard m => be1 m.code
  | .laneEvent n e => be1 n.val ++ e.bytes
  | .overrun => []

/-- One bit of the CRC register, shifted in most significant bit first (R183). -/
def crcBit (r : BitVec 16) (b : Bool) : BitVec 16 :=
  if r.msb != b then (r <<< 1) ^^^ 0x1021 else r <<< 1

/-- One byte of the CRC. -/
def crcByte (r : BitVec 16) (x : Byte) : BitVec 16 :=
  [7, 6, 5, 4, 3, 2, 1, 0].foldl (fun r i => crcBit r (x.getLsbD i)) r

/-- R183: generator 0x1021, initial value 0xFFFF, no reflection, no final inversion. -/
def crc16 (bs : List Byte) : BitVec 16 := bs.foldl crcByte 0xFFFF

/-- R183: a whole frame. -/
def frameBytes (kind tag : Byte) (payload : List Byte) : List Byte :=
  let body := BitVec.ofNat 8 (payload.length + 2) :: kind :: tag :: payload
  0xC3 :: (body ++ be2 (crc16 body).toNat)

/-- The payload of a reply (R191). -/
def Reply.payload (r : Reply) : List Byte := r.code :: r.status.code :: r.data

/-- The bytes on the line of the frame being sent (R183, R191, R196). -/
def TxFrame.bytes : TxFrame → List Byte
  | .reply r => frameBytes 0x40 r.tag r.payload
  | .notice n => frameBytes n.kindByte 0 n.payload

/-! ### Setup records as SETUP_WRITE gives them (R190): 4 bytes a field -/

def CalRecord.bytes (r : CalRecord) : List Byte :=
  signed4 r.zero ++ signed4 r.span ++
  signed4 (match r.deck with
    | none => -1
    | some d => d.val)

def DeckSetup.bytes (u : DeckSetup) : List Byte :=
  signed4 u.max ++ signed4 u.e ++ signed4 u.k ++ signed4 u.m ++ signed4 u.b ++ signed4 u.stableTimeout ++
  signed4 u.warmUp ++ signed4 u.idleSleep

def LaneSetup.bytes (u : LaneSetup) : List Byte :=
  signed4 u.enabled.toNat ++ signed4 u.direction.code ++ signed4 u.loopFilter ++ signed4 u.settle ++
  signed4 u.travel ++ signed4 u.wake.deckRising.toNat ++ signed4 u.wake.deckFalling.toNat ++
  signed4 u.wake.clearRising.toNat ++ signed4 u.wake.clearFalling.toNat

def YardSetup.bytes (u : YardSetup) : List Byte := signed4 u.p ++ signed4 u.maxStay

/-! ### The data of the reads -/

/-- R190: wake cause, 3 bytes. -/
def WakeCause.bytes : WakeCause → List Byte
  | .none => be1 0 ++ be1 0xFF ++ be1 0xFF
  | .edge lp was => be1 1 ++ be1 (loopCode lp) ++ yesNo was
  | .request => be1 2 ++ be1 0xFF ++ be1 0xFF

/-- R190: wake mask copy, 4 bytes. -/
def WakeMask.bytes (m : WakeMask) : List Byte :=
  yesNo m.deckRising ++ yesNo m.deckFalling ++ yesNo m.clearRising ++ yesNo m.clearFalling

/-- R190: one member of a deck, 6 bytes. -/
def Channel.bytes (ch : Channel) : List Byte := weight4 ch.raw ++ yesNo ch.lost ++ be1 ch.saturation.code

/-- R190: last spot result, 16 bytes. -/
def SpotResult.bytes : Option SpotResult → List Byte
  | none => be1 0 ++ be1 0xFF ++ be4 0 ++ be1 0xFF ++ be4 0x80000000 ++ be4 0 ++ be1 0
  | some r => be1 1 ++ be1 r.link.val ++ be4 r.start ++ be1 r.outcome.code ++ r.outcome.bytes

/-- R26: the weighing fields of a deck. -/
def deckWeighingBytes (s : State) (d : DeckId) : List Byte :=
  let k := s.deck d
  let ms := s.members d
  channelSet (s.memberIds d) ++ be1 ms.length ++ ms.flatMap Channel.bytes ++
  weight4 (k.current.map (·.reported)) ++ weight4 (k.current.map (fun w => roundDiv w.a 1000)) ++
  yesNo (k.current.any (·.isOver)) ++ yesNo (k.current.any (·.isUnder)) ++ signed4 (roundDiv k.zd 1000) ++
  k.setup.bytes ++ be4 k.count

/-- R49: the state fields of a deck. -/
def deckStateBytes (s : State) (d : DeckId) : List Byte :=
  let k := s.deck d
  be1 k.state.code ++ yesNo k.service ++ yesNo k.setupBad ++ yesNo (k.stable && k.current.isSome) ++
  yesNo k.zeroLimit ++ yesNo k.powerUpZero ++ k.wakeCause.bytes ++
  channelSet ((s.memberIds d).filter (fun c => (s.chan c).lost)) ++ k.wakeMask.bytes ++ be1 k.zeroCal.length

/-- R68: unit state, kind, owner, start and stable timeout. -/
def Capture.bytes : Option Capture → List Byte
  | none => be1 0 ++ be1 0 ++ be2 0 ++ be1 0xFF ++ be4 0 ++ be1 0 ++ be4 0
  | some c =>
    be1 1 ++ be1 c.owner.kind.code ++
    (match c.owner with
      | .visitIn v => be2 v ++ be1 0xFF
      | .visitOut v => be2 v ++ be1 0xFF
      | .spot l => be2 0 ++ be1 l.val) ++
    be4 c.start ++
    (match c.timeout with
      | .notStarted => be1 1 ++ be4 0
      | .running since _ => be1 2 ++ be4 since)

/-- READ_DECK (R26, R49, R68). -/
def readDeckData (s : State) (d : DeckId) : List Byte :=
  deckWeighingBytes s d ++ deckStateBytes s d ++ Capture.bytes (s.unit d).cap ++ SpotResult.bytes (s.unit d).lastSpot

/-- The raise cause of READ_LANE, 4 bytes (R190). -/
def causeBytes (c : Option Cause) : List Byte :=
  causeCodes (c.map (fun c => (c.kind.tag, c.status))) ++ be2 (orZero (c.bind (fun c => c.kind.visit?)))

/-- READ_LANE (R92), the latest status word first; an active limit or output is sent as 1 (log entry 39). -/
def readLaneData (s : State) (n : LaneId) : List Byte :=
  let k := s.lane n
  k.word.bytes ++
  be1 ((!k.setup.enabled).toNat + 2 * k.setupBad.toNat + 4 * ((s.deck n).state == .unused).toNat) ++ k.setup.bytes ++
  yesNo k.up.active ++ yesNo k.down.active ++ yesNo k.raiseOut ++ yesNo k.lowerOut ++ yesNo k.goOut ++
  causeBytes k.cause ++ yesNo k.mark ++ be4 k.count ++ yesNo k.settled ++ be1 k.jam.code ++
  yesNo k.resolution.isSome ++ yesNo k.settle.isSome ++ yesNo k.travel.isSome

/-- LIST_VISITS (R127, R194). -/
def listVisitsData (s : State) (start count : Nat) : List Byte :=
  let vs := (s.register.visits.drop start).take (min count 3)
  be1 s.register.visits.length ++ be1 s.register.unreleased ++ be1 s.register.mode.code ++ be2 s.register.counter ++
  be1 vs.length ++ vs.flatMap Visit.bytes

/-- READ_CLOCK (R199). -/
def readClockData (s : State) : List Byte :=
  yesNo s.clock.isSet ++ be4 s.clock.time ++ be2 (dayNumber s.clock.time) ++ yesNo s.journal.counter.isSome ++
  be1 s.power.lastKind.code ++ be1 s.power.lastCheck.code

/-- IDENTIFY (R206). -/
def identifyData (s : State) (l : LinkId) : List Byte :=
  be2 0x0A6E ++ be2 0x01B8 ++ be1 3 ++ be1 2 ++ be1 l.val ++ be1 (s.link l).role.code ++ be1 (s.link l).speed.toNat

/-- Area and index of a write (R132). -/
def StoreWrite.place : StoreWrite → StoreArea × Nat
  | .tare i _ => (.tare, i.val)
  | .cal c _ => (.setup, c.val)
  | .deck d _ => (.setup, 16 + d.val)
  | .lane n _ => (.setup, 20 + n.val)
  | .yard _ => (.setup, 24)

/-- The write engine field of TARE_READ (R135): state, area, index. -/
def engineBytes : Option Engine → List Byte
  | none => be1 0 ++ [Config.engineAreaIdle] ++ be1 0xFF
  | some g => be1 1 ++ be1 g.write.place.1.code ++ be1 g.write.place.2

/-- The writes of a ZERO_CAL still to follow the one in flight (R141). -/
def State.followCount (s : State) : Nat :=
  match s.store.engine.bind (·.zeroCal) with
  | none => 0
  | some d => (s.deck d).zeroCal.length - 1

/-- The fields of a tare entry that its check word covers (R129). -/
def TareEntry.covered (t : TareEntry) : List Byte :=
  plate12 t.plate ++ signed4 t.tare ++ be3 (orZero t.account) ++ be2 t.expiry

/-- The fields of a tare entry, the check word last (R129): its value is a free one, and as a number R192 does not name
it takes 4 bytes (log entry 36). -/
def TareEntry.bytes (t : TareEntry) : List Byte := t.covered ++ signed4 (Config.checkWord t.covered).toNat

/-- The entry at an index when it is VALID. -/
def TareSlot.entry? (t : TareSlot) : Option TareEntry :=
  match t.status, t.cell with
  | .valid, .content e => some e
  | _, _ => none

/-- The number of VALID entries. -/
def Store.validCount (st : Store) : Nat := st.tare.toList.countP (fun t => t.status == .valid)

/-- What both forms of TARE_READ end with (R135). -/
def tareSummary (s : State) : List Byte := be4 s.store.validCount ++ engineBytes s.store.engine

/-- TARE_READ by index (R135). -/
def tareByIndexData (s : State) (i : Fin 256) : List Byte :=
  let t := s.store.tare.get i
  be1 t.status.code ++
  (match t.entry? with
    | none => []
    | some e => e.bytes) ++
  tareSummary s

/-- TARE_READ by registration (R135). -/
def tareByPlateData (s : State) (i : Fin 256) (e : TareEntry) : List Byte :=
  be1 i.val ++ e.bytes ++ tareSummary s

/-- A setup index (R130). -/
inductive SetupIndex where
  | cal (c : ChanId)
  | deck (d : DeckId)
  | lane (n : LaneId)
  | yard
  deriving DecidableEq, Repr

/-- The number of a setup index (R130). -/
def SetupIndex.number : SetupIndex → Nat
  | .cal c => c.val
  | .deck d => 16 + d.val
  | .lane n => 20 + n.val
  | .yard => 24

/-- Status, record in effect and SETUP_BAD of a setup index (R141); the record in the form that SETUP_WRITE gives it (log
entry 34). -/
def setupFields (s : State) : SetupIndex → List Byte
  | .cal c => be1 (s.store.cal.get c).status.code ++ (s.chan c).cal.bytes ++ Config.setupBadAbsent
  | .deck d => be1 (s.store.deck.get d).status.code ++ (s.deck d).setup.bytes ++ yesNo (s.deck d).setupBad
  | .lane n => be1 (s.store.lane.get n).status.code ++ (s.lane n).setup.bytes ++ yesNo (s.lane n).setupBad
  | .yard => be1 s.store.yard.status.code ++ s.store.yardSetup.bytes ++ yesNo s.store.yardBad

/-- SETUP_READ (R141); CALEN asserted is sent as 1 (log entry 39). -/
def setupReadData (s : State) (i : SetupIndex) (calen : Bool) : List Byte :=
  be1 i.number ++ setupFields s i ++ yesNo calen ++ engineBytes s.store.engine ++ be4 s.followCount

/-- A cursor (R190): form and ticket number. -/
def Journal.cursorBytes (j : Journal) : Cursor → List Byte
  | .absent => be1 0 ++ be4 0
  | .head => be1 1 ++ be4 (orZero j.counter)
  | .record n => be1 2 ++ be4 n

/-- Owner and ticket number of a slot (R190). -/
def slotBytes : Option Ticket → List Byte
  | none => be1 0 ++ be4 0
  | some t => be1 1 ++ be4 t.number

/-- The slot pair status of a link (R190, section 8.2). -/
def slotStatus (s : State) (l : LinkId) : List Byte :=
  let k := s.jlink l
  slotBytes k.even ++ slotBytes k.odd ++ be1 k.next.code ++ yesNo k.halt ++ be1 k.role.code ++
  s.journal.cursorBytes k.cursor

end Sys2Proof.Machine
end

