-- ==== Sys2Proof/Machine/Operands.lean ====
section
/-! DEFINITION. Reading the fields of a request's payload (R186 step 3, R190, R192): none where the request is refused
BAD_REQUEST at decoding. The decoding ranges the spec does not state by name are in log entry 20. -/

namespace Sys2Proof.Machine

/-- An unsigned number, high byte first. -/
def num (bs : List Byte) : Nat := bs.foldl (fun a b => a * 256 + b.toNat) 0

/-- A signed number of 4 bytes. -/
def signedNum (bs : List Byte) : Int := (BitVec.ofNat 32 (num bs)).toInt

/-- A lane or deck number (R192). -/
def quad? (b : Byte) : Option (Fin 4) :=
  if h : b.toNat < 4 then some ⟨b.toNat, h⟩ else none

/-- A value inside a range, ends included. -/
def within? (lo hi x : Nat) : Option Nat := if lo ≤ x ∧ x ≤ hi then some x else none

/-- 0x61 to 0x7A taken as upper case (R192). -/
def upper (b : Byte) : Byte := if 0x61 ≤ b.toNat ∧ b.toNat ≤ 0x7A then b - 0x20 else b

/-- A character of a registration, after conversion (R192). -/
def plateChar (b : Byte) : Bool :=
  b == 0x20 || (decide (0x30 ≤ b.toNat) && decide (b.toNat ≤ 0x39)) ||
    (decide (0x41 ≤ b.toNat) && decide (b.toNat ≤ 0x5A))

/-- The text of a registration field of 12 bytes, empty text included (R192). -/
def plateText? (bs : List Byte) : Option Plate :=
  let text := (bs.takeWhile (· != 0)).map upper
  if text.all plateChar && (bs.dropWhile (· != 0)).all (· == 0) && (text.head? != some 0x20) &&
      (text.getLast? != some 0x20) then some text else none

/-- A registration that must be given. -/
def plate? (bs : List Byte) : Option Plate :=
  match plateText? bs with
  | some [] => none
  | r => r

/-- An account field: 0 is none (R192). -/
def account? (n : Nat) : Option (Option Nat) :=
  if n = 0 then some none else (within? 1 999999 n).map some

def direction? (b : Byte) : Option LoadDirection :=
  if b = 1 then some .delivery else if b = 2 then some .collection else none

def tareMode? (b : Byte) : Option TareMode :=
  if b = 1 then some .weighed else if b = 2 then some .stored else none

/-- A request without fields. -/
def noFields? : List Byte → Option Unit
  | [] => some ()
  | _ => none

/-- A request with one lane or deck. -/
def quadField? : List Byte → Option (Fin 4)
  | [b] => quad? b
  | _ => none

/-- A request with one visit number. -/
def visitField? : List Byte → Option Nat
  | [a, b] => some (num [a, b])
  | _ => none

/-- A request with one 4-byte number. -/
def wordField? : List Byte → Option Nat
  | [a, b, c, d] => some (num [a, b, c, d])
  | _ => none

/-- The fields of ADMIT (R101, R190). -/
structure AdmitFields where
  lane : LaneId
  plate : Plate
  account : Option Nat
  stream : Nat
  direction : LoadDirection
  tareMode : TareMode
  deriving DecidableEq, Repr

def admitFields? (p : List Byte) : Option AdmitFields :=
  match p with
  | [] => none
  | b :: q =>
    match q.drop 12 with
    | [a1, a2, a3, st, dir, tm] => do
      let lane ← quad? b
      let plate ← plate? (q.take 12)
      let account ← account? (num [a1, a2, a3])
      let stream ← within? 1 31 st.toNat
      let direction ← direction? dir
      let tareMode ← tareMode? tm
      pure ⟨lane, plate, account, stream, direction, tareMode⟩
    | _ => none

/-- The fields of DEPART (R110): an empty registration is an omitted one. -/
structure DepartFields where
  lane : LaneId
  visit : Nat
  plate : Option Plate
  deriving DecidableEq, Repr

def departFields? (p : List Byte) : Option DepartFields :=
  match p with
  | b :: v1 :: v2 :: q =>
    if q.length = 12 then do
      let lane ← quad? b
      let text ← plateText? q
      pure ⟨lane, num [v1, v2], if text = [] then none else some text⟩
    else none
  | _ => none

/-- Visit number and stream (R120). -/
def reclassifyFields? : List Byte → Option (Nat × Nat)
  | [v1, v2, st] => (within? 1 31 st.toNat).map (fun x => (num [v1, v2], x))
  | _ => none

/-- The entry a TARE_WRITE gives (R133). -/
def tareWriteFields? (p : List Byte) : Option TareEntry :=
  match p.drop 12 with
  | [t1, t2, t3, t4, a1, a2, a3, x1, x2] => do
    let plate ← plate? (p.take 12)
    let tare ← within? 1 120000 (num [t1, t2, t3, t4])
    let account ← account? (num [a1, a2, a3])
    let expiry ← within? 0 49710 (num [x1, x2])
    pure ⟨plate, tare, account, expiry⟩
  | _ => none

/-- A registration alone (R134). -/
def plateField? (p : List Byte) : Option Plate := if p.length = 12 then plate? p else none

/-- The two forms of TARE_READ; the field the form does not use is not checked (R135, R192). -/
inductive TareReadForm where
  | byIndex (i : Fin 256)
  | byPlate (p : Plate)
  deriving DecidableEq, Repr

def tareReadFields? (p : List Byte) : Option TareReadForm :=
  match p with
  | form :: i :: q =>
    if q.length = 12 then
      if form = 0 then some (.byIndex i.toFin)
      else if form = 1 then (plate? q).map .byPlate
      else none
    else none
  | _ => none

/-- A setup index 0 to 24 (R136). -/
def setupIndex? (b : Byte) : Option SetupIndex :=
  if h : b.toNat < 16 then some (.cal ⟨b.toNat, h⟩)
  else if h : b.toNat - 16 < 4 then some (.deck ⟨b.toNat - 16, h⟩)
  else if h : b.toNat - 20 < 4 then some (.lane ⟨b.toNat - 20, h⟩)
  else if b.toNat = 24 then some .yard
  else none

def setupIndexField? : List Byte → Option SetupIndex
  | [b] => setupIndex? b
  | _ => none

/-- The 4-byte numbers of a payload; none when its length is no multiple of 4. -/
def fours : List Byte → Option (List Int)
  | [] => some []
  | a :: b :: c :: d :: rest => (fours rest).map (signedNum [a, b, c, d] :: ·)
  | _ => none

/-- The record a SETUP_WRITE names, its fields as the numbers given: ranges are judged later (R136). -/
inductive SetupGiven where
  | cal (c : ChanId) (zero span deck : Int)
  | deck (d : DeckId) (max e k m b stableTimeout warmUp idleSleep : Int)
  | lane (n : LaneId) (enabled direction loopFilter settle travel deckRising deckFalling clearRising clearFalling : Int)
  | yard (p maxStay : Int)
  deriving DecidableEq, Repr

def setupWriteFields? (p : List Byte) : Option SetupGiven :=
  match p with
  | [] => none
  | b :: q =>
    match setupIndex? b, fours q with
    | some (.cal c), some [z, sp, dk] => some (.cal c z sp dk)
    | some (.deck d), some [mx, e, k, m, bd, st, wu, sl] => some (.deck d mx e k m bd st wu sl)
    | some (.lane n), some [en, dir, lf, se, tr, w1, w2, w3, w4] => some (.lane n en dir lf se tr w1 w2 w3 w4)
    | some .yard, some [x, y] => some (.yard x y)
    | _, _ => none

/-- What SET_YARD_MODE asks (R123; codes of R192). -/
inductive ModeAsked where
  | opened | closing | forceClosed
  deriving DecidableEq, Repr

def modeField? : List Byte → Option ModeAsked
  | [b] => if b = 1 then some .opened else if b = 2 then some .closing else if b = 4 then some .forceClosed else none
  | _ => none

/-- A ticket base, 1 upward (R149). -/
def ticketBase? (p : List Byte) : Option Nat := (wordField? p).bind (within? 1 4294967295)

/-- Start position 0 to 95 and count 1 to 8 (R127). -/
def listFields? : List Byte → Option (Nat × Nat)
  | [a, b] => (within? 0 95 a.toNat).bind (fun x => (within? 1 8 b.toNat).map (fun y => (x, y)))
  | _ => none

def slotField? : List Byte → Option SlotId
  | [b] => if b = 0 then some .even else if b = 1 then some .odd else none
  | _ => none

/-- A subscription mask without bit 7 (R175, R192). -/
def maskField? : List Byte → Option (BitVec 8)
  | [b] => if b.getLsbD 7 then none else some b
  | _ => none

def roleField? : List Byte → Option JournalRole
  | [b] => if b = 0 then some .none else if b = 1 then some .follow else if b = 2 then some .hold else none
  | _ => none

end Sys2Proof.Machine
end

