-- ==== Sys2Proof/Machine/JournalOps.lean ====
section
/-! DEFINITION. The ticket journal's own operations: held records and margin (R155 to R158), writing a record (R150,
R151, R159), fills of the slot pairs (R165 to R167), roles (R154, R171), the rewind and the adjustment at a reset
(R162, R163). -/

namespace Sys2Proof.Machine

/-- The retained records from the one with a number to the newest; none when it is not retained. -/
def recordsFrom (rs : List Ticket) (n : Nat) : List Ticket := rs.dropWhile (fun t => t.number != n)

/-- The retained records at or after a cursor (R153). -/
def waitingRecords (rs : List Ticket) : Cursor → List Ticket
  | .record n => recordsFrom rs n
  | .head => []
  | .absent => []

/-- R155: outstanding records of a HOLD link; 0 for the others. -/
def JournalLink.outstanding (rs : List Ticket) (k : JournalLink) : Nat :=
  if k.role = .hold then k.slotCount + (waitingRecords rs k.cursor).length else 0

/-- R155: the held count. -/
def Journal.held (j : Journal) : Nat := (j.links.map (·.outstanding j.records)).foldl max 0

/-- R155: the ticket number of the oldest held record. -/
def Journal.oldestHeld (j : Journal) : Option Nat := (newest j.held j.records).head?.map (·.number)

/-- R156: the margin. -/
def State.margin (s : State) : Int := 512 - (s.journal.held : Int) - (s.register.unreleased : Int)

/-- R157. -/
def State.headroom (s : State) : Bool := decide (s.journal.held + s.register.unreleased + 1 ≤ 512)

/-- R158: the LOW mark judged on the margin; a LOW notice when it falls to 16 or below. -/
def judgeLow (s : State) : State :=
  { s with
    journal := { s.journal with low := decide (s.margin ≤ 16) }
    links := if s.margin ≤ 16 ∧ s.journal.low = false then
        offerAll s.links (.journalLow s.margin s.journal.oldestHeld) else s.links }

/-! ### Writing a record -/

/-- R148: the counter after a number has been used. -/
def nextTicket (n : Nat) : Nat := if n = 4294967295 then 1 else n + 1

/-- R150 step 2: the records that stay when one more is placed. -/
def roomFor (rs : List Ticket) : List Ticket := if rs.length < 512 then rs else rs.drop 1

/-- R150 step 2: the record removed, if the ring is full. -/
def removedBy (rs : List Ticket) : Option Nat := if rs.length < 512 then none else rs.head?.map (·.number)

/-- R151, R159: a link's place after a write of record `num` that removed `gone` and left `oldest` the oldest. -/
def JournalLink.afterWrite (num : Nat) (gone : Option Nat) (oldest : Nat) (k : JournalLink) : JournalLink :=
  match k.cursor with
  | .absent => k
  | .head => { k with cursor := .record num }
  | .record n =>
    if k.role = .follow ∧ gone = some n then { k with cursor := .record oldest, gap := min (k.gap + 1) 65535 } else k

/-- R159: the GAP notice of a link whose cursor moved. -/
def JournalLink.gapNotice (gone : Option Nat) (oldest : Nat) (k : JournalLink) : Option Notice :=
  match k.cursor with
  | .absent => none
  | .head => none
  | .record n =>
    if k.role = .follow ∧ gone = some n then some (.journalGap (min (k.gap + 1) 65535) oldest) else none

/-- A record written: the journal after it (R150, R151). `t` is the record without its number. -/
def Journal.place (j : Journal) (num : Nat) (t : Ticket) : Journal :=
  let rs := roomFor j.records ++ [{ t with number := num }]
  { j with
    records := rs
    counter := some (nextTicket num)
    links := j.links.map (·.afterWrite num (removedBy j.records) (orZero (rs.head?.map (·.number)))) }

/-- The GAP notices of a write, each for one link (R159). -/
def Journal.gapNotices (j : Journal) (num : Nat) (t : Ticket) : List (LinkId × Notice) :=
  let rs := roomFor j.records ++ [{ t with number := num }]
  allLinks.filterMap (fun l =>
    ((j.links.get l).gapNotice (removedBy j.records) (orZero (rs.head?.map (·.number)))).map (fun n => (l, n)))

/-- R150, R151: a write; with the counter unset nothing is written (R148; log entry 22). -/
def writeRecord (t : Ticket) (s : State) : State :=
  match s.journal.counter with
  | none => s
  | some num =>
    { s with journal := s.journal.place num t, links := offerEach s.links (s.journal.gapNotices num t) }

/-! ### Slot pairs -/

def JournalLink.slot (k : JournalLink) : SlotId → Option Ticket
  | .even => k.even
  | .odd => k.odd

def JournalLink.setSlot (k : JournalLink) (i : SlotId) (t : Option Ticket) : JournalLink :=
  match i with
  | .even => { k with even := t }
  | .odd => { k with odd := t }

def SlotId.other : SlotId → SlotId
  | .even => .odd
  | .odd => .even

/-- R153: the cursor past a record that was filled. -/
def cursorPast : List Ticket → Cursor
  | [] => .head
  | t :: _ => .record t.number

/-- R166: the conditions of a fill, but for a record waiting at the cursor. -/
def JournalLink.open? (k : JournalLink) : Bool := k.role != .none && !k.halt && (k.slot k.next).isNone

/-- R166, R167: one fill with its TICKET notice, if the conditions hold. -/
def JournalLink.fillOnce (rs : List Ticket) (k : JournalLink) : JournalLink × List Notice :=
  if k.open? then
    match waitingRecords rs k.cursor with
    | [] => (k, [])
    | t :: rest =>
      ({ k.setSlot k.next (some t) with
          next := k.next.other, cursor := cursorPast rest, slotCount := k.slotCount + 1, gap := 0 },
        [.ticket k.next t.number])
  else (k, [])

/-- R166: up to two fills. -/
def JournalLink.fill (rs : List Ticket) (k : JournalLink) : JournalLink × List Notice :=
  let a := k.fillOnce rs
  let b := a.1.fillOnce rs
  (b.1, a.2 ++ b.2)

/-- The fill conditions of one link judged (R166). -/
def fillLink (l : LinkId) (s : State) : State :=
  let f := (s.jlink l).fill s.journal.records
  { s with
    journal := { s.journal with links := setAt s.journal.links l f.1 }
    links := offerEach s.links (f.2.map (fun n => (l, n))) }

/-- The fill conditions of every link judged. -/
def fillAll (s : State) : State := allLinks.foldl (fun s l => fillLink l s) s

/-- R165, R171: both slots revert to PART. -/
def JournalLink.revert (k : JournalLink) : JournalLink :=
  { k with even := none, odd := none, next := .even, slotCount := 0 }

/-- R154: the place of a link that takes a role. -/
def JournalLink.takeRole (k : JournalLink) (r : JournalRole) : JournalLink :=
  { k.revert with role := r, cursor := if r = .none then .absent else .head, gap := 0 }

/-- R169: a slot given back. -/
def JournalLink.giveBack (k : JournalLink) (i : SlotId) : JournalLink :=
  { k.setSlot i none with slotCount := k.slotCount - 1 }

/-! ### After a reset (R162, R163, R172) -/

/-- The place of a cursor among the retained records, counted from the oldest; the head stands after the newest. -/
def cursorPlace (rs : List Ticket) : Cursor → Nat
  | .record n => rs.length - (recordsFrom rs n).length
  | .head => rs.length
  | .absent => rs.length

/-- The cursor at a place. -/
def cursorAt (rs : List Ticket) (i : Nat) : Cursor :=
  match rs[i]? with
  | some t => .record t.number
  | none => .head

/-- R162: the cursor moved back by the slot count, no further than the oldest retained record. -/
def rewindCursor (rs : List Ticket) (count : Nat) (c : Cursor) : Cursor :=
  match c with
  | .absent => .absent
  | .head => cursorAt rs (cursorPlace rs c - count)
  | .record _ => cursorAt rs (cursorPlace rs c - count)

/-- R163: the role that a strapped role allows. -/
def JournalLink.adjust (r : Role) (k : JournalLink) : JournalLink :=
  match r with
  | .disabled => { k with role := .none, cursor := .absent }
  | .kiosk => if k.role = .hold then { k with role := .follow } else k
  | .gate => k
  | .office => k

/-- R162, R163, R172: one link's place after a reset. -/
def JournalLink.afterReset (rs : List Ticket) (r : Role) (k : JournalLink) : JournalLink :=
  JournalLink.adjust r
    { role := k.role, cursor := rewindCursor rs k.slotCount k.cursor, slotCount := 0, gap := 0, even := none
      odd := none, next := .even, halt := false }

end Sys2Proof.Machine
end

