-- ==== Sys2Proof/Machine/BarrierOps.lean ====
section
/-! DEFINITION. The lane controller's own operations, on one lane: loops and limits (R73, R74, R76), the barrier machine
(R77 to R87), the raise cause (R78, R79, R86). What an operation hands on stands in LaneStep. -/

namespace Sys2Proof.Machine

/-- A lane after an operation, and what it hands on: JAMMED or TAILGATE notices, and a passage with its VISIT cause. -/
structure LaneStep where
  lane : Lane
  jammed : Bool := false
  tailgate : Bool := false
  passage : Option CauseKind := none
  deriving DecidableEq, Repr

/-! ### Loops and limits -/

/-- R73: the debounce that a level asks for, a running one kept. -/
def debounceFor (level state : Bool) (running : Option Debounce) (ms : Nat) : Option Debounce :=
  if level = state then none
  else
    match running with
    | some d => some d
    | none => some ⟨level, ms⟩

/-- R73, R74: a change of the level input; disregarded while the detector-fault input is asserted. -/
def Loop.levelChange (p : Loop) (level : Bool) (ms : Nat) : Loop :=
  if p.faultIn then { p with level := level }
  else { p with level := level, debounce := debounceFor level p.occupied p.debounce ms }

/-- R74: the detector-fault input becomes asserted. -/
def Loop.faultAssert (p : Loop) : Loop := { p with faultIn := true, fault := true, occupied := true, debounce := none }

/-- R74: the detector-fault input is deasserted; the debounce resumes from occupied. -/
def Loop.faultClear (p : Loop) (ms : Nat) : Loop :=
  { p with faultIn := false, fault := false, debounce := debounceFor p.level p.occupied none ms }

/-- R73: the debounce timer has expired. -/
def Loop.settled (p : Loop) (target : Bool) : Loop := { p with occupied := target, debounce := none }

/-- R87: the loop as its inputs stand at the come-up. -/
def Loop.fromInputs (p : Loop) : Loop :=
  { p with occupied := p.faultIn || p.level, fault := p.faultIn, debounce := none }

/-- R76: a change of a limit input, with the fixed 50 ms. -/
def Limit.levelChange (p : Limit) (level : Bool) : Limit :=
  { p with level := level, debounce := debounceFor level p.active p.debounce 50 }

/-- R87. -/
def Limit.fromInputs (p : Limit) : Limit := { p with active := p.level, debounce := none }

def Lane.loop (k : Lane) : LoopId → Loop
  | .deck => k.deckLoop
  | .clear => k.clearLoop

def Lane.setLoop (k : Lane) (i : LoopId) (p : Loop) : Lane :=
  match i with
  | .deck => { k with deckLoop := p }
  | .clear => { k with clearLoop := p }

def Lane.limit (k : Lane) : LimitId → Limit
  | .up => k.up
  | .down => k.down

def Lane.setLimit (k : Lane) (i : LimitId) (p : Limit) : Lane :=
  match i with
  | .up => { k with up := p }
  | .down => { k with down := p }

/-- Both debounced limits read active (R81). -/
def Lane.bothLimits (k : Lane) : Bool := k.up.active && k.down.active

/-! ### Entering a barrier state -/

/-- R81: cause, passage mark and passage count are kept. -/
def Lane.jamFor (k : Lane) (why : JamReason) : LaneStep :=
  { lane := { k with barrier := .jammed, jam := why, travel := none, resolution := none }, jammed := true }

/-- R80, R81: entry to DOWN. -/
def Lane.enterDown (k : Lane) : LaneStep :=
  if k.bothLimits then k.jamFor .bothLimits
  else { lane := { k with barrier := .down, jam := .none, travel := none, resolution := none } }

/-- R80, R81: entry to LOWERING; DOWN at once when DOWN_LIMIT already reads active. -/
def Lane.enterLowering (k : Lane) : LaneStep :=
  if k.bothLimits then k.jamFor .bothLimits
  else if k.down.active then k.enterDown
  else { lane := { k with barrier := .lowering, travel := some (k.setup.travel * 1000), resolution := none } }

/-- R84: the lower conditions. -/
def Lane.lowerConditions (k : Lane) : Bool := k.barrier == .up && !k.pendingCause (fun _ => true) && k.settled

/-- R84: the lower conditions judged. -/
def Lane.judgeLower (k : Lane) : LaneStep := if k.lowerConditions then k.enterLowering else { lane := k }

/-- R80, R81: entry to UP, where the lower conditions are judged at once. -/
def Lane.enterUp (k : Lane) : LaneStep :=
  if k.bothLimits then k.jamFor .bothLimits
  else Lane.judgeLower { k with barrier := .up, jam := .none, travel := none, resolution := none }

/-- R80, R81: entry to RAISING; UP at once when UP_LIMIT already reads active. -/
def Lane.enterRaising (k : Lane) : LaneStep :=
  if k.bothLimits then k.jamFor .bothLimits
  else if k.up.active then k.enterUp
  else { lane := { k with barrier := .raising, travel := some (k.setup.travel * 1000), resolution := none } }

/-! ### Causes -/

/-- R78: a new cause of kind ADMITTED, RELEASED or MANUAL. -/
def Lane.giveCause (k : Lane) (c : CauseKind) : Lane := { k with cause := some ⟨c, .pending⟩, count := 0 }

/-- R79: what a raise does by the barrier's state, once the cause stands; JAMMED stays JAMMED. -/
def Lane.raiseArm (k : Lane) : LaneStep :=
  match k.barrier with
  | .unresolved => k.enterRaising
  | .down => k.enterRaising
  | .lowering => k.enterRaising
  | .raising => { lane := k }
  | .up => { lane := k }
  | .jammed => { lane := k }

/-- R79: a raise asked by the yard register. -/
def Lane.raise (k : Lane) (c : CauseKind) : LaneStep := (k.giveCause c).raiseArm

/-- A cause with another status. -/
def Lane.markCause (k : Lane) (st : CauseStatus) : Lane :=
  { k with cause := k.cause.map (fun c => { c with status := st }) }

/-- R86: a PENDING cause that passes the test is withdrawn, and the lower conditions are judged. -/
def Lane.withdraw (k : Lane) (p : Cause → Bool) : LaneStep :=
  if k.pendingCause p then (k.markCause .withdrawn).judgeLower else { lane := k }

/-- R86: the register's withdrawal names a visit. -/
def Lane.withdrawVisit (k : Lane) (v : Nat) : LaneStep := k.withdraw (fun c => c.kind.visit? == some v)

/-! ### Loop events at the barrier (R75) -/

/-- DECK cleared: the back-off of R86. -/
def Lane.deckCleared (k : Lane) : LaneStep := if k.mark then { lane := k } else k.withdraw Cause.isVisit

/-- R82: whether a CLEAR occupied event sets the passage mark. -/
def Lane.marks (k : Lane) (faultEvent : Bool) : Bool :=
  !faultEvent && (k.barrier == .raising || k.barrier == .up || k.barrier == .lowering)

/-- CLEAR occupied: settle (R83), passage mark (R82), reversal (R85). -/
def Lane.clearOccupied (k : Lane) (faultEvent : Bool) : LaneStep :=
  let k1 := { k with settle := none, settled := false, mark := k.mark || k.marks faultEvent }
  if k.barrier = .lowering then Lane.enterRaising { k1 with cause := some ⟨.safety, .pending⟩ } else { lane := k1 }

/-- R82: a CLEAR cleared event is a passage. -/
def Lane.isPassage (k : Lane) : Bool := k.mark && (k.barrier == .raising || k.barrier == .up)

/-- R82 step 1. -/
def Lane.isTailgate (k : Lane) : Bool :=
  decide (1 ≤ k.count) ||
    match k.cause with
    | some c => c.status == .withdrawn
    | none => false

/-- R82 step 2: the VISIT cause a passage hands to the register. -/
def Lane.credited (k : Lane) : Option CauseKind :=
  match k.cause with
  | some c => if c.isPending && c.isVisit then some c.kind else none
  | none => none

/-- CLEAR cleared: settle (R83), passage (R82), SAFETY withdrawal (R86). -/
def Lane.clearCleared (k : Lane) : LaneStep :=
  let k1 := { k with settle := some (k.setup.settle * 100), settled := false, mark := false }
  if k.isPassage then
    let k2 := if k.pendingCause (fun _ => true) then k1.markCause .consumed else k1
    { Lane.judgeLower { k2 with count := min (k.count + 1) 255 } with tailgate := k.isTailgate, passage := k.credited }
  else k1.withdraw (fun c => c.kind == .safety)

/-- A loop event at the barrier machine (R75). -/
def Lane.loopEvent (k : Lane) (i : LoopId) (occupied faultEvent : Bool) : LaneStep :=
  match i, occupied with
  | .deck, true => { lane := k }
  | .deck, false => k.deckCleared
  | .clear, true => k.clearOccupied faultEvent
  | .clear, false => k.clearCleared

/-! ### Limit events and timers -/

/-- R76, R80, R81: what a limit event does once the debounced state stands. -/
def Lane.limitEvent (k : Lane) (i : LimitId) : LaneStep :=
  if k.bothLimits && (k.barrier == .down || k.barrier == .raising || k.barrier == .up || k.barrier == .lowering) then
    k.jamFor .bothLimits
  else if i = .up ∧ k.up.active ∧ k.barrier = .raising then k.enterUp
  else if i = .down ∧ k.down.active ∧ k.barrier = .lowering then k.enterDown
  else { lane := k }

/-- R81: the travel timer expires. -/
def Lane.travelExpired (k : Lane) : LaneStep :=
  match k.barrier with
  | .raising => k.jamFor .travelRaising
  | .lowering => k.jamFor .travelLowering
  | .unresolved => { lane := { k with travel := none } }
  | .down => { lane := { k with travel := none } }
  | .up => { lane := { k with travel := none } }
  | .jammed => { lane := { k with travel := none } }

/-- R83: the settle timer expires. -/
def Lane.settleExpired (k : Lane) : LaneStep := Lane.judgeLower { k with settle := none, settled := true }

/-- R87: the SAFETY cause of a resolution, with the passage mark where CLEAR reads occupied without a fault. -/
def Lane.safetyFound (k : Lane) : Lane :=
  { k with
    cause := some ⟨.safety, if k.clearLoop.occupied then .pending else .withdrawn⟩
    mark := k.mark || (k.clearLoop.occupied && !k.clearLoop.fault) }

/-- R87: the resolution timer expires. -/
def Lane.resolve (k : Lane) : LaneStep :=
  let k1 := { k with resolution := none, cause := none, count := 0 }
  if k.bothLimits then k1.jamFor .bothLimits
  else if k.down.active then k1.enterDown
  else if k.up.active then k1.safetyFound.enterUp
  else if k.clearLoop.occupied then k1.safetyFound.enterRaising
  else k1.enterLowering

/-! ### Requests on the barrier -/

/-- R88: a PENDING VISIT cause is kept, any other becomes MANUAL. -/
def Lane.manualCause (k : Lane) : Lane := if k.pendingCause Cause.isVisit then k else k.giveCause .manual

/-- R88: MANUAL_RAISE. -/
def Lane.manualRaise (k : Lane) : LaneStep :=
  match k.barrier with
  | .unresolved => k.manualCause.enterRaising
  | .down => k.manualCause.enterRaising
  | .lowering => k.manualCause.enterRaising
  | .jammed => k.manualCause.enterRaising
  | .raising => { lane := k.manualCause }
  | .up => { lane := k.manualCause }

/-- R89: what LOWER_RESET does to a travelling or raised arm; none where it is refused. -/
def Lane.resetRaised (k : Lane) : Option LaneStep :=
  if k.pendingCause Cause.isVisit then none else some (k.withdraw (fun _ => true))

/-- R89: LOWER_RESET; none where it is refused WRONG_STATE. -/
def Lane.lowerReset (k : Lane) : Option LaneStep :=
  match k.barrier with
  | .jammed =>
    if k.clearLoop.occupied then none
    else
      some (Lane.enterLowering (if k.pendingCause (fun _ => true) then k.markCause .withdrawn else k))
  | .raising => k.resetRaised
  | .up => k.resetRaised
  | .down => none
  | .lowering => none
  | .unresolved => none

/-! ### Resets (R87, R93) -/

/-- R93 with the inputs not yet taken; setup, SETUP_BAD and the input pins are kept. -/
def Lane.cleared (k : Lane) : Lane :=
  { k with
    deckLoop := ⟨k.deckLoop.level, k.deckLoop.faultIn, false, false, none⟩
    clearLoop := ⟨k.clearLoop.level, k.clearLoop.faultIn, false, false, none⟩
    up := ⟨k.up.level, false, none⟩
    down := ⟨k.down.level, false, none⟩
    barrier := .unresolved, jam := .none, cause := none, mark := false, count := 0, settled := false
    resolution := none, settle := none, travel := none, raiseOut := false, lowerOut := false, goOut := false }

/-- R87, R93: the lane's come-up: inputs taken, resolution and settle timers started. -/
def Lane.comeUp (k : Lane) : Lane :=
  let p := k.clearLoop.fromInputs
  { k with
    deckLoop := k.deckLoop.fromInputs, clearLoop := p, up := k.up.fromInputs, down := k.down.fromInputs
    resolution := some k.setup.loopFilter, settle := if p.occupied then none else some (k.setup.settle * 100) }

end Sys2Proof.Machine
end

