-- ==== Sys2Proof/Machine/RegisterOps.lean ====
section
/-! DEFINITION. The yard register's reactions: passages (R107, R116), raises and withdrawals asked of a lane (R79, R86),
the net and the ticket (R99, R100, R114), the outcome of a capture (R104 to R106, R113, R115), overstay (R121). -/

namespace Sys2Proof.Machine

/-! ### Lanes -/

/-- R107, R116: a passage handed to the register by a lane. -/
def takePassage (n : LaneId) (c : CauseKind) (s : State) : State :=
  match c with
  | .admitted v =>
    if (s.register.find v).any (fun x => x.state == .entering) && s.bound n == some v then
      { s with
        register := (s.register.update v (fun x => { x with state := .onSite })).unbind v
        links := offerAll s.links (.visit v .entered) }
    else s
  | .released v =>
    if (s.register.find v).any (fun x => x.state == .released) && s.bound n == some v then
      { s with register := s.register.leave v, links := offerAll s.links (.visit v .departed) }
    else s
  | .manual => s
  | .safety => s

/-- What a lane's operation hands on: TAILGATE first, then the passage (R82), then JAMMED (R81). -/
def applyLane (n : LaneId) (r : LaneStep) (s : State) : State :=
  let s1 := s.setLane n r.lane
  let s2 := if r.tailgate then s1.offerAll (.laneEvent n .tailgate) else s1
  let s3 := match r.passage with
    | some c => takePassage n c s2
    | none => s2
  if r.jammed then s3.offerAll (.laneEvent n .jammed) else s3

/-- R79: the register asks a lane to raise. -/
def raiseLane (n : LaneId) (c : CauseKind) (s : State) : State := applyLane n ((s.lane n).raise c) s

/-- R86: the register asks a lane to withdraw a visit's cause. -/
def withdrawLane (n : LaneId) (v : Nat) (s : State) : State := applyLane n ((s.lane n).withdrawVisit v) s

/-- R104, R113: a raise asked only if the lane's DECK loop reads occupied. -/
def raiseIfOccupied (n : LaneId) (c : CauseKind) (s : State) : State :=
  if (s.lane n).deckLoop.occupied then raiseLane n c s else s

/-! ### Weighing plans and tickets -/

/-- R99: the plan needs a capture at entry. -/
def Visit.needsEntry (v : Visit) : Bool := !(v.tareMode == .stored && v.direction == .collection)

/-- R99: the plan needs a capture at exit. -/
def Visit.needsExit (v : Visit) : Bool := !(v.tareMode == .stored && v.direction == .delivery)

/-- The weight of a weighing; 0 where the plan's weighing is absent (log entry 22). -/
def weightOf (w : Option Weighing) : Int := (w.map (·.weight)).getD 0

/-- R99: the difference the plan names. -/
def Visit.difference (v : Visit) : Int :=
  match v.tareMode, v.direction with
  | .weighed, .delivery => weightOf v.first - weightOf v.second
  | .weighed, .collection => weightOf v.second - weightOf v.first
  | .stored, .delivery => weightOf v.first - (orZero v.storedTare : Nat)
  | .stored, .collection => weightOf v.second - (orZero v.storedTare : Nat)

/-- R100. -/
def Visit.net (v : Visit) : Nat := v.difference.toNat

/-- R100: the flag REVERSED. -/
def Visit.reversed (v : Visit) : Bool := decide (v.difference < 0)

/-- R146: a weighing as the ticket carries it. -/
def Weighing.onTicket (w : Weighing) : TicketWeighing := ⟨w.deck, w.weight, w.time⟩

/-- R114: what a record takes from the visit; the journal assigns the number. -/
def Visit.ticketOf (v : Visit) (kind : TicketKind) (net : Option Nat) (reversed : Bool) (time : Nat) : Ticket :=
  { number := 0, kind := kind, visit := v.number, plate := v.plate, stream := v.stream, direction := v.direction
    link := v.link, account := v.account, first := v.first.map Weighing.onTicket
    second := v.second.map Weighing.onTicket, storedTare := v.storedTare, net := net, admitted := v.admitted
    ticketed := time, flags := v.flags, reversed := reversed }

/-- R114: the record of a release. -/
def Visit.releaseTicket (v : Visit) (time : Nat) : Ticket :=
  v.ticketOf (if v.tareMode = .stored then .storedTare else .weighed) (some v.net) v.reversed time

/-- R114, R118: the record of a void. -/
def Visit.voidTicket (v : Visit) (time : Nat) : Ticket := v.ticketOf .void none false time

/-- R114: a visit as the release leaves it. -/
def Visit.released (v : Visit) (ticket : Option Nat) : Visit := { v with state := .released, ticket := ticket }

/-- R113 steps 2 and 3, R112: the visit's ticket is written and the visit enters RELEASED; fills come later (R167). -/
def releaseVisit (v : Visit) (s : State) : State :=
  let s1 := writeRecord (v.releaseTicket s.clock.time) s
  { s1 with register := s1.register.update v.number (fun _ => v.released s.journal.counter) }

/-! ### The outcome of a VISIT capture -/

/-- A visit flag joined with a record's ZERO_LIMIT (R96). -/
def VisitFlags.withZeroLimit (f : VisitFlags) (b : Bool) : VisitFlags := { f with zeroLimit := f.zeroLimit || b }

/-- R104: the first weighing. -/
def Visit.weighedIn (v : Visit) (r : Weighing) : Visit :=
  { v with first := some r, flags := v.flags.withZeroLimit r.zeroLimit, failure := none, state := .entering
           capMark := false }

/-- R113 step 1: the second weighing. -/
def Visit.weighedOut (v : Visit) (r : Weighing) : Visit :=
  { v with second := some r, flags := v.flags.withZeroLimit r.zeroLimit, failure := none, capMark := false }

/-- R115: an exit weighing that failed. -/
def Visit.failedOut (v : Visit) (why : CapFail) : Visit :=
  { v with state := .onSite, exitLane := none, failure := some why, capMark := false }

/-- R105: an entry weighing that failed, the visit kept. -/
def Visit.failedIn (v : Visit) (why : CapFail) : Visit := { v with failure := some why, capMark := false }

/-- R104, R105: the outcome of a VISIT_IN capture of a WEIGH_IN visit on a lane. -/
def entryOutcome (n : LaneId) (v : Visit) (o : CapOutcome) (s : State) : State :=
  match o with
  | .done r =>
    raiseIfOccupied n (.admitted v.number)
      { s with register := s.register.update v.number (fun x => x.weighedIn r) }
  | .failed .vehicleLeft =>
    { s with register := s.register.leave v.number, links := offerAll s.links (.visit v.number .cancelled) }
  | .failed why => { s with register := s.register.update v.number (fun x => x.failedIn why) }

/-- R113, R115: the outcome of a VISIT_OUT capture of a WEIGH_OUT visit on a lane. -/
def exitOutcome (n : LaneId) (v : Visit) (o : CapOutcome) (s : State) : State :=
  match o with
  | .done r => fillAll (raiseIfOccupied n (.released v.number) (releaseVisit (v.weighedOut r) s))
  | .failed why =>
    { s with register := (s.register.update v.number (fun x => x.failedOut why)).unbind v.number }

/-- R106: an outcome is discarded unless it names a visit in the state its kind asks, bound to the capture's lane. -/
def handOutcome (n : LaneId) (owner : CapOwner) (o : CapOutcome) (s : State) : State :=
  match owner with
  | .visitIn v =>
    match s.register.find v with
    | none => s
    | some x => if x.state = .weighIn ∧ s.bound n = some v then entryOutcome n x o s else s
  | .visitOut v =>
    match s.register.find v with
    | none => s
    | some x => if x.state = .weighOut ∧ s.bound n = some v then exitOutcome n x o s else s
  | .spot _ => s

/-! ### Overstay (R121) -/

/-- A visit's stay has expired under a limit in hours. -/
def Visit.expired (time limit : Nat) (v : Visit) : Bool :=
  limit != 0 && decide (v.admitted ≤ time) && decide (limit * 3600 ≤ time - v.admitted)

/-- The judgment flags this visit. -/
def Visit.nowOverstays (time limit : Nat) (v : Visit) : Bool := !v.flags.overstay && v.expired time limit

/-- R121: every visit not yet flagged is judged; notices in admission order. -/
def judgeOverstay (s : State) : State :=
  let due := Visit.nowOverstays s.clock.time s.store.yardSetup.maxStay
  { s with
    register := { s.register with
      visits := s.register.visits.map (fun v => if due v then { v with flags := { v.flags with overstay := true } } else v) }
    links := (s.register.visits.filter due).foldl (fun ks v => offerAll ks (.visit v.number .overstay)) s.links }

end Sys2Proof.Machine
end

