-- ==== Sys2Proof/Machine/DeckOps.lean ====
section
/-! DEFINITION. Deck states (R28 to R33, R42 to R48) and capture units (R51 to R67): entering a state, the end and the
start of a capture, a sample, and what closes an event (EMPTY, outputs, status words, the yard mode). -/

namespace Sys2Proof.Machine

/-! ### Channels -/

/-- R5: what is cleared when a channel starts or stops being supervised. -/
def Channel.unsupervise (ch : Channel) : Channel := { ch with arrival := false, missed := 0, lost := false, history := [] }

/-- R23: what an emptying of the deck's window clears in a member. -/
def Channel.emptied (ch : Channel) : Channel := { ch with arrival := false, history := [] }

/-- The channels with the members of one deck changed. -/
def mapMembers (d : DeckId) (f : Channel → Channel) (chs : Vector Channel 16) : Vector Channel 16 :=
  chs.map (fun ch => if ch.memberOf d then f ch else ch)

/-- R23: an emptied window. -/
def Deck.emptied (k : Deck) : Deck := { k with window := [], count := 0, history := [], stable := false, current := none }

/-- R23: a deck's filter window is emptied. -/
def emptyWindow (d : DeckId) (s : State) : State :=
  { s with decks := setAt s.decks d (s.deck d).emptied, channels := mapMembers d Channel.emptied s.channels }

/-! ### Entering a state (R29) -/

/-- R29: the timers and the power-up zero as most entries leave them, excitation by the state. -/
def Deck.quiet (k : Deck) (new : DeckState) : Deck :=
  { k with state := new, excitation := new.excited, warmUp := none, idle := none, powerUpZero := false
           wakeCause := .none }

/-- R23, R29: an entry that empties the window. -/
def emptiesOn (old new : DeckState) : Bool :=
  match new with
  | .warming => true
  | .active => old == .fault
  | .service => old == .sleep || old == .unused || old == .fault
  | .unused => false
  | .sleep => false
  | .fault => false

/-- R29: a deck after entry to a state. -/
def Deck.entered (k : Deck) (new : DeckState) (cause : WakeCause) : Deck :=
  let k1 := if emptiesOn k.state new then k.emptied else k
  match new with
  | .unused => { k1.quiet .unused with current := none }
  | .sleep => { k1.quiet .sleep with current := none }
  | .fault => { k1.quiet .fault with current := none }
  | .warming => { k1.quiet .warming with warmUp := some (k.setup.warmUp * 1000), wakeCause := cause }
  | .active => { k1.quiet .active with powerUpZero := k.state == .warming }
  | .service => k1.quiet .service

/-- R5, R23: a member when its deck passes from one state to another. -/
def Channel.onDeckChange (old new : DeckState) (ch : Channel) : Channel :=
  if old.excited != new.excited then ch.unsupervise else if emptiesOn old new then ch.emptied else ch

/-- R29: a deck enters a state; its members with it. -/
def enterDeck (d : DeckId) (new : DeckState) (cause : WakeCause) (s : State) : State :=
  { s with
    decks := setAt s.decks d ((s.deck d).entered new cause)
    channels := mapMembers d (Channel.onDeckChange (s.deck d).state new) s.channels }

/-! ### The end of a capture -/

/-- R51, R67: the unit IDLE, a SPOT outcome kept as the last spot result. -/
def CaptureUnit.ended (u : CaptureUnit) (c : Capture) (o : CapOutcome) : CaptureUnit :=
  { cap := none
    lastSpot := match c.owner with
      | .spot l => some ⟨l, c.start, o⟩
      | .visitIn _ => u.lastSpot
      | .visitOut _ => u.lastSpot }

/-- R66: the CAPTURE notice, to every link or to the link that asked. -/
def offerCapture (d : DeckId) (owner : CapOwner) (o : CapOutcome) (ks : Vector LinkState 3) : Vector LinkState 3 :=
  match owner with
  | .spot l => offerOne ks l (.capture d owner o)
  | .visitIn _ => offerAll ks (.capture d owner o)
  | .visitOut _ => offerAll ks (.capture d owner o)

/-- Section 3.6: a capture ends; the CAPTURE notice stands before the notices of the register's reaction (R65). -/
def endCapture (d : DeckId) (o : CapOutcome) (s : State) : State :=
  match (s.unit d).cap with
  | none => s
  | some c =>
    handOutcome d c.owner o
      { s with units := setAt s.units d ((s.unit d).ended c o), links := offerCapture d c.owner o s.links }

/-- R61: the register ends the VISIT capture of a visit, if the unit holds it. -/
def endVisitCapture (d : DeckId) (v : Nat) (s : State) : State :=
  match (s.unit d).cap with
  | none => s
  | some c => if c.owner = .visitIn v ∨ c.owner = .visitOut v then endCapture d (.failed .aborted) s else s

/-! ### Deck changes -/

/-- R55, R56: the stable timeout starts at the entry to ACTIVE. -/
def startTimeout (d : DeckId) (s : State) : State :=
  match (s.unit d).cap with
  | none => s
  | some c =>
    match c.timeout with
    | .running _ _ => s
    | .notStarted =>
      s.setUnit d { s.unit d with
        cap := some { c with timeout := .running s.clock.time ((s.deck d).setup.stableTimeout * 1000) } }

/-- R60: what a change of deck state does to a waiting capture. -/
def onDeckState (d : DeckId) (new : DeckState) (s : State) : State :=
  match new with
  | .active => startTimeout d s
  | .fault => endCapture d (.failed .cellFault) s
  | .service => endCapture d (.failed .aborted) s
  | .sleep => endCapture d (.failed .aborted) s
  | .unused => endCapture d (.failed .aborted) s
  | .warming => s

/-- R28: a deck changes state, and its capture unit is told. -/
def deckChange (d : DeckId) (new : DeckState) (cause : WakeCause) (s : State) : State :=
  onDeckState d new (enterDeck d new cause s)

/-- R33: the deck leaves FAULT once no member is LOST. -/
def leaveFault (d : DeckId) (s : State) : State :=
  if (s.deck d).state = .fault ∧ (s.members d).all (fun ch => !ch.lost) then
    deckChange d (if (s.deck d).service then .service else .active) .none s
  else s

/-- R33: a member is LOST. -/
def enterFault (d : DeckId) (s : State) : State :=
  if (s.deck d).state.sampling then deckChange d .fault .none s else s

/-- R30, R50: the state a usable deck takes. -/
def usableState (s : State) (d : DeckId) : DeckState :=
  if (s.deck d).service then .service else if s.register.mode = .closed then .sleep else .warming

/-- R30: a deck that a write has made usable leaves UNUSED. -/
def leaveUnused (d : DeckId) (s : State) : State :=
  if (s.deck d).state = .unused ∧ (s.deck d).setupBad = false ∧ (s.members d).isEmpty = false then
    deckChange d (usableState s d) .request s
  else s

/-- R30: a deck whose last member has left enters UNUSED. -/
def becomeUnused (d : DeckId) (s : State) : State :=
  if (s.deck d).state ≠ .unused ∧ (s.members d).isEmpty = true then deckChange d .unused .none s else s

/-! ### Loop events at the deck (R43, R46) -/

/-- R42: the enable of one edge. -/
def WakeMask.enables (m : WakeMask) (i : LoopId) (rising : Bool) : Bool :=
  match i, rising with
  | .deck, true => m.deckRising
  | .deck, false => m.deckFalling
  | .clear, true => m.clearRising
  | .clear, false => m.clearFalling

/-- R43, R46: a loop event reaches the deck: an enabled edge wakes it, the waking loop's return ends a false wake. -/
def deckLoopEvent (d : DeckId) (i : LoopId) (occupied : Bool) (s : State) : State :=
  let k := s.deck d
  if k.state = .sleep then
    if k.wakeMask.enables i occupied then deckChange d .warming (.edge i (!occupied)) s else s
  else if k.state = .warming ∧ k.wakeCause = .edge i occupied then deckChange d .sleep .none s
  else s

/-- R59: a DECK cleared event ends a waiting VISIT capture. -/
def captureLoopEvent (d : DeckId) (i : LoopId) (occupied : Bool) (s : State) : State :=
  match (s.unit d).cap with
  | none => s
  | some c =>
    if i = .deck ∧ occupied = false ∧ c.owner.kind ≠ .spot then endCapture d (.failed .vehicleLeft) s else s

/-- R75: a loop event handed on, in the order of log entry 10. -/
def loopEvent (n : LaneId) (i : LoopId) (occupied faultEvent : Bool) (s : State) : State :=
  let s2 := captureLoopEvent n i occupied (deckLoopEvent n i occupied s)
  applyLane n ((s2.lane n).loopEvent i occupied faultEvent) s2

/-! ### The start of a capture -/

/-- R52: the unit's refusal of a VISIT request, if any. -/
def visitRefusal (s : State) (d : DeckId) : Option Status :=
  if !(s.deck d).state.capturable then some .deckNotReady
  else if !(s.lane d).deckLoop.occupied then some .noVehicle
  else
    match (s.unit d).cap with
    | none => none
    | some c => if c.owner.kind = .spot then none else some .deckBusy

/-- R55: the stable timeout of a capture just accepted. -/
def firstTimeout (s : State) (d : DeckId) : StableTimeout :=
  if (s.deck d).state = .active then .running s.clock.time ((s.deck d).setup.stableTimeout * 1000) else .notStarted

/-- R44: a request wakes a sleeping deck, or makes a warm-up one of cause REQUEST. -/
def wakeForRequest (d : DeckId) (s : State) : State :=
  match (s.deck d).state with
  | .sleep => deckChange d .warming .request s
  | .warming => s.setDeck d { s.deck d with wakeCause := .request }
  | .active => s
  | .fault => s
  | .service => s
  | .unused => s

/-- R52, R55, R62: an accepted capture starts, a waiting SPOT ending PREEMPTED first. -/
def startCapture (d : DeckId) (owner : CapOwner) (s : State) : State :=
  let s1 := endCapture d (.failed .preempted) s
  let c : Capture := ⟨owner, s1.clock.time, firstTimeout s1 d⟩
  wakeForRequest d (s1.setUnit d { s1.unit d with cap := some c })

/-! ### Samples -/

/-- R57, R58: what a STABLE sample decides. -/
def decideSample (u : DeckSetup) (spot : Bool) (w : CurrentWeight) (r : Weighing) : CapOutcome :=
  if w.isOver then .failed .overload
  else if w.isUnder then .failed (if spot then .under else .belowMin)
  else if !spot && decide (w.reported < u.minCapture) then .failed .belowMin
  else .done r

/-- R57, R58: the capture unit examines a sample just completed on an ACTIVE deck; one completed in a later step than a
VISIT request was formed after it (R62, log entry 33). `zl`: ZERO_LIMIT at the sample. -/
def examineSample (d : DeckId) (zl : Bool) (s : State) : State :=
  match (s.unit d).cap, (s.deck d).current with
  | some c, some w =>
    if (s.deck d).state = .active ∧ (s.deck d).stable = true then
      endCapture d
        (decideSample (s.deck d).setup (c.owner.kind == .spot) w ⟨d, c.owner.kind, w.reported, s.clock.time, zl⟩) s
    else s
  | _, _ => s

/-- R15, R25: a sample forms when every member's arrival mark is set: stages 1 to 5, stability, zero, capture unit. -/
def sampleIfReady (d : DeckId) (s : State) : State :=
  let ms := s.members d
  if (s.deck d).state.sampling && !ms.isEmpty && ms.all (·.arrival) then
    let k := (s.deck d).sample ms
    let k2 := if s.isEmpty d then k.zeroStep else k
    examineSample d k.zeroLimit
      { s with
        decks := setAt s.decks d k2
        channels := mapMembers d (fun ch => { ch with arrival := false }) s.channels }
  else s

/-! ### The close of an event -/

/-- R126, R48: the yard mode becomes CLOSED and the ACTIVE and WARMING decks sleep. -/
def becomeClosed (s : State) : State :=
  allDecks.foldl
    (fun s d =>
      if (s.deck d).state = .active ∨ (s.deck d).state = .warming then deckChange d .sleep .none s else s)
    { s with register := { s.register with mode := .closed } }

/-- R124: while CLOSING, the leaving of the last visit closes the yard. -/
def autoClose (s : State) : State :=
  if s.register.mode = .closing ∧ s.register.visits.isEmpty = true then becomeClosed s else s

/-- R47: the idle timer's length; stopped with an idle sleep time of 0. -/
def idleTimer (u : DeckSetup) : Timer := if u.idleSleep = 0 then none else some (u.idleSleep * 60000)

/-- R35, R47: EMPTY judged afresh; its beginning starts the idle timer, its end stops it. -/
def Deck.judgeEmpty (k : Deck) (now : Bool) : Deck :=
  if now = k.empty then k else { k with empty := now, idle := if now then idleTimer k.setup else none }

/-- R35 on every deck. -/
def judgeEmpty (s : State) : State :=
  { s with decks := Vector.ofFn (fun d => (s.deck d).judgeEmpty (s.isEmpty d)) }

/-- R77, R91: the outputs of every lane as its state has them, and a status word for each lane whose fields changed. -/
def showLanes (s : State) : State :=
  { s with
    lanes := Vector.ofFn (fun n => { (s.lane n).withOutputs with word := statusWord s n })
    links := allLanes.foldl
      (fun ks n => if statusWord s n = (s.lane n).word then ks else offerAll ks (.laneStatus (statusWord s n))) s.links }

/-- R126: the YARD notice of a change of mode, after the words (R91). -/
def announceMode (before : YardMode) (s : State) : State :=
  if s.register.mode = before then s else s.offerAll (.yard s.register.mode)

/-- What closes an event of the yard that began in a mode (log entry 14). -/
def finish (before : YardMode) (s : State) : State :=
  announceMode before (showLanes (judgeEmpty (judgeLow (autoClose s))))

/-- An event that acts where a condition holds, with its close; not taken unless the part is up. -/
def yardEvent (now : State → Bool) (f : State → State) : State → Host.Outcome State Fault Refusal :=
  whenUp (fun s => if now s then finish s.register.mode (f s) else s)

end Sys2Proof.Machine
end

