-- ==== Sys2Proof/Machine/StoreOps.lean ====
section
/-! DEFINITION. The store's own operations: lookups and places (R129, R133), ranges and conditions of a setup write
(R9, R10, R12, R70, R136 to R140), a write's completion and taking effect (R11, R13, R41, R71, R132, R140), an
abandoned write (R131, R144) and the scan (R142). -/

namespace Sys2Proof.Machine

/-! ### Lookups -/

/-- The indices of the tare area, ascending. -/
def tareIndices : List (Fin 256) := List.finRange 256

/-- R129: the VALID entry of a registration, with its index. -/
def Store.lookup (st : Store) (p : Plate) : Option (Fin 256 × TareEntry) :=
  tareIndices.findSome? (fun i =>
    match (st.tare.get i).entry? with
    | some e => if e.plate = p then some (i, e) else none
    | none => none)

/-- R133: the lowest index that is EMPTY or INVALID. -/
def Store.freeIndex (st : Store) : Option (Fin 256) := tareIndices.find? (fun i => (st.tare.get i).status != .valid)

/-- R133: the place of a registration's entry. -/
def Store.placeFor (st : Store) (p : Plate) : Option (Fin 256) :=
  match st.lookup p with
  | some (i, _) => some i
  | none => st.freeIndex

/-- R102: the entry usable at a yard time. -/
def TareEntry.usable (time : Nat) (e : TareEntry) : Bool := e.expiry == 0 || decide (dayNumber time ≤ e.expiry)

/-- R132: a write is started; it takes 8 ms. -/
def startWrite (w : StoreWrite) (zeroCal : Option DeckId) (s : State) : State :=
  { s with store := { s.store with engine := some ⟨w, zeroCal, 8⟩ } }

/-! ### Setup records in range -/

/-- A field in its range, as a natural number. -/
def ranged? (lo hi : Nat) (x : Int) : Option Nat := if (lo : Int) ≤ x ∧ x ≤ hi then some x.toNat else none

/-- A yes / no field. -/
def flag? (x : Int) : Option Bool := if x = 0 then some false else if x = 1 then some true else none

/-- The deck field of a calibration record, -1 for none; none outside the range. -/
def deckField? (x : Int) : Option (Option DeckId) :=
  if x = -1 then some none
  else if h : x.toNat < 4 then (if 0 ≤ x then some (some ⟨x.toNat, h⟩) else none)
  else none

/-- R9. -/
def calInRange? (z sp dk : Int) : Option CalRecord :=
  if -8388608 ≤ z ∧ z ≤ 8388607 then do
    let span ← ranged? 1 16777215 sp
    let deck ← deckField? dk
    pure ⟨z, span, deck⟩
  else none

/-- R12, the quotient Max / e included. -/
def deckInRange? (mx e k m b st wu sl : Int) : Option DeckSetup := do
  let max ← ranged? 1000 120000 mx
  let e ← ranged? 1 100 e
  let k ← ranged? 0 5 k
  let m ← ranged? 2 64 m
  let b ← ranged? 1 4 b
  let st ← ranged? 1 60 st
  let wu ← ranged? 1 60 wu
  let sl ← ranged? 0 120 sl
  if e ∈ [1, 2, 5, 10, 20, 50, 100] ∧ 500 * e ≤ max ∧ max ≤ 10000 * e then pure ⟨max, e, k, m, b, st, wu, sl⟩ else none

/-- R70. -/
def laneInRange? (en dir lf se tr w1 w2 w3 w4 : Int) : Option LaneSetup := do
  let en ← flag? en
  let dir ← flag? dir
  let lf ← ranged? 100 2000 lf
  let se ← ranged? 5 50 se
  let tr ← ranged? 2 15 tr
  let w1 ← flag? w1
  let w2 ← flag? w2
  let w3 ← flag? w3
  let w4 ← flag? w4
  if lf % 100 = 0 ∧ se % 5 = 0 then pure ⟨en, if dir then .exit else .entry, lf, se, tr, ⟨w1, w2, w3, w4⟩⟩ else none

/-- R140. -/
def yardInRange? (p st : Int) : Option YardSetup := do
  let p ← ranged? 1 8 p
  let st ← ranged? 0 48 st
  pure ⟨p, st⟩

/-- R10: the deck named has 8 members other than the channel written. -/
def deckFull (s : State) (c : ChanId) (d : DeckId) : Bool :=
  decide (8 ≤ ((s.memberIds d).filter (fun x => x != c)).length)

/-- R136 check 3: the write of a record whose fields are in range. -/
def writeInRange? (s : State) : SetupGiven → Option StoreWrite
  | .cal c z sp dk =>
    match calInRange? z sp dk with
    | none => none
    | some r => if r.deck.any (fun d => deckFull s c d) then none else some (.cal c r)
  | .deck d mx e k m b st wu sl => (deckInRange? mx e k m b st wu sl).map (.deck d)
  | .lane n en dir lf se tr w1 w2 w3 w4 => (laneInRange? en dir lf se tr w1 w2 w3 w4).map (.lane n)
  | .yard p st => (yardInRange? p st).map .yard

/-! ### Conditions of a setup write -/

/-- R137: the service mark of a deck, where there is one. -/
def serviced (s : State) : Option DeckId → Bool
  | none => true
  | some d => (s.deck d).service

/-- R136 check 1: the refusal of the record's kind (R137, R138, R139). A deck field outside its range names no deck. -/
def kindRefusal (s : State) (calen : Bool) : SetupGiven → Option Status
  | .cal c _ _ dk =>
    if calen && serviced s (s.chan c).cal.deck && serviced s ((deckField? dk).getD none) then none else some .calLocked
  | .deck d _ _ _ _ _ _ _ _ =>
    if (s.deck d).service || (s.deck d).state == .unused then none else some .wrongState
  | .lane n _ _ _ _ _ _ _ _ _ => if (s.lane n).barrier == .down || s.disabled n then none else some .wrongState
  | .yard _ _ => none

/-- R70, R136 check 4: a lane setup on a bound lane keeps the direction and does not disable the lane. -/
def boundRefusal (s : State) : StoreWrite → Option Status
  | .lane n r =>
    if (s.bound n).isSome && (r.direction != (s.lane n).setup.direction || !r.enabled) then some .wrongState else none
  | .tare _ _ => none
  | .cal _ _ => none
  | .deck _ _ => none
  | .yard _ => none

/-- R136: the write a SETUP_WRITE starts, or its refusal, by the checks in their order. -/
def setupChecks (s : State) (calen : Bool) (g : SetupGiven) : Except Status StoreWrite :=
  match kindRefusal s calen g with
  | some st => .error st
  | none =>
    if s.store.engine.isSome then .error .storeBusy
    else
      match writeInRange? s g with
      | none => .error .setupRange
      | some w =>
        match boundRefusal s w with
        | some st => .error st
        | none => .ok w

/-! ### A write's completion (R132) -/

/-- R132 step 1: the new content, VALID, or EMPTY for an erase. -/
def Store.complete (st : Store) (w : StoreWrite) : Store :=
  match w with
  | .tare i (some e) => { st with tare := setAt st.tare i ⟨.content e, .valid⟩ }
  | .tare i none => { st with tare := setAt st.tare i ⟨.emptyMarker, .empty⟩ }
  | .cal c r => { st with cal := setAt st.cal c ⟨.content r, .valid⟩ }
  | .deck d r => { st with deck := setAt st.deck d ⟨.content r, .valid⟩ }
  | .lane n r => { st with lane := setAt st.lane n ⟨.content r, .valid⟩ }
  | .yard r => { st with yard := ⟨.content r, .valid⟩ }

/-- R11: the channel with its new record; it starts afresh when its deck changes. -/
def Channel.calibrated (ch : Channel) (r : CalRecord) : Channel :=
  if r.deck = ch.cal.deck then { ch with cal := r } else { ch.unsupervise with cal := r }

/-- R11: the deck a channel has left. -/
def deckLeft (d : Option DeckId) (s : State) : State :=
  match d with
  | none => s
  | some d => leaveFault d (becomeUnused d (emptyWindow d s))

/-- R11: the deck a channel has joined. -/
def deckJoined (d : Option DeckId) (s : State) : State :=
  match d with
  | none => s
  | some d => leaveUnused d (emptyWindow d s)

/-- R11. -/
def calTakesEffect (c : ChanId) (r : CalRecord) (s : State) : State :=
  let old := (s.chan c).cal.deck
  let s1 := s.setChan c ((s.chan c).calibrated r)
  if r.deck = old then
    match old with
    | none => s1
    | some d => emptyWindow d s1
  else deckJoined r.deck (deckLeft old s1)

/-- R13: the deck with its new setup, Zd clamped to the new limit. -/
def Deck.withSetup (k : Deck) (u : DeckSetup) : Deck :=
  let zd := clampTo u.zeroLimit k.zd
  { k.moveZero zd (k.zeroLimit || decide (zd ≠ k.zd)) with setup := u, setupBad := false }

/-- R13, R138; the idle timer stays as it is, running or stopped, on an ACTIVE and EMPTY deck too (log entry 32). -/
def deckSetupTakesEffect (d : DeckId) (u : DeckSetup) (s : State) : State :=
  leaveUnused d (emptyWindow d (s.setDeck d ((s.deck d).withSetup u)))

/-- R71, R98: the setup that a new record brings into effect: a lane bound to a visit keeps its direction (log entry
30). -/
def State.setupFrom (s : State) (n : LaneId) (u : LaneSetup) : LaneSetup :=
  { u with direction := if (s.bound n).isSome then (s.lane n).setup.direction else u.direction }

/-- R71, R42, R98. -/
def laneSetupTakesEffect (n : LaneId) (u : LaneSetup) (s : State) : State :=
  { s with
    lanes := setAt s.lanes n { s.lane n with setup := s.setupFrom n u, setupBad := false }
    decks := setAt s.decks n { s.deck n with wakeMask := u.wake } }

/-- R3: a changed exponent starts a new period and clears every missed-period count; the convert-start is not shown (log
entry 37). -/
def restartPeriod (p : Nat) (s : State) : State :=
  { s with
    period := some (periodLength p)
    channels := s.channels.map (fun ch => { ch with missed := 0, answered := false }) }

/-- R140. -/
def yardSetupTakesEffect (u : YardSetup) (s : State) : State :=
  let old := s.store.yardSetup
  let s1 := { s with store := { s.store with yardSetup := u, yardBad := false } }
  let s2 := if u.p = old.p then s1 else restartPeriod u.p s1
  if u.maxStay = old.maxStay then s2 else judgeOverstay s2

/-- R132 step 2. -/
def takesEffect (w : StoreWrite) (s : State) : State :=
  match w with
  | .tare _ _ => s
  | .cal c r => calTakesEffect c r s
  | .deck d u => deckSetupTakesEffect d u s
  | .lane n u => laneSetupTakesEffect n u s
  | .yard u => yardSetupTakesEffect u s

/-- The write of one record of a ZERO_CAL: the record in effect with its new Z (R41). -/
def zeroCalWrite (s : State) (c : ChanId) (z : Int) : StoreWrite := .cal c { (s.chan c).cal with zero := z }

/-- R41: the deck with one record of its ZERO_CAL completed; the last sets Zd to 0 and clears ZERO_LIMIT. -/
def Deck.zeroCalNext (k : Deck) : Deck :=
  match k.zeroCal with
  | [] => k
  | [_] => { k.moveZero 0 false with zeroCal := [] }
  | _ :: rest => { k with zeroCal := rest }

/-- R132 step 3: the engine IDLE, or the next write of a ZERO_CAL. -/
def engineNext (zeroCal : Option DeckId) (s : State) : State :=
  match zeroCal with
  | none => { s with store := { s.store with engine := none } }
  | some d =>
    let k := (s.deck d).zeroCalNext
    let s1 := s.setDeck d k
    match k.zeroCal with
    | [] => { s1 with store := { s1.store with engine := none } }
    | (c, z) :: _ => startWrite (zeroCalWrite s1 c z) (some d) s1

/-- R132: the completion of the write in flight; with the engine IDLE there is none. -/
def completeWrite (s : State) : State :=
  match s.store.engine with
  | none => s
  | some g =>
    let s1 := takesEffect g.write { s with store := s.store.complete g.write }
    (engineNext g.zeroCal s1).offerAll (.storeDone g.write.place.1 g.write.place.2)

/-! ### An abandoned write (R131, R144) -/

/-- R131: the stored content after an abandoned write that had changed a field. -/
def Store.tear (st : Store) (w : StoreWrite) : Store :=
  match w with
  | .tare i _ => { st with tare := setAt st.tare i { st.tare.get i with cell := .mismatch } }
  | .cal c _ => { st with cal := setAt st.cal c { st.cal.get c with cell := .mismatch } }
  | .deck d _ => { st with deck := setAt st.deck d { st.deck.get d with cell := .mismatch } }
  | .lane n _ => { st with lane := setAt st.lane n { st.lane.get n with cell := .mismatch } }
  | .yard _ => { st with yard := { st.yard with cell := .mismatch } }

/-- R131: the write lays down other fields than those that stand at its place; where it does not, as R136 allows, it can
have changed none. -/
def Store.changedBy (st : Store) (w : StoreWrite) : Bool :=
  match w with
  | .tare i (some e) => decide ((st.tare.get i).cell ≠ .content e)
  | .tare i none => decide ((st.tare.get i).cell ≠ .emptyMarker)
  | .cal c r => decide ((st.cal.get c).cell ≠ .content r)
  | .deck d r => decide ((st.deck.get d).cell ≠ .content r)
  | .lane n r => decide ((st.lane.get n).cell ≠ .content r)
  | .yard r => decide (st.yard.cell ≠ .content r)

/-- R131: the content that an abandoned write leaves; whether it had changed a field, where it could, is a free value
(log entry 1). -/
def Store.abandoned (st : Store) (w : StoreWrite) (torn : Bool) : Store :=
  if torn && st.changedBy w then st.tear w else st

/-- R131: the write in flight is abandoned. -/
def abandonWrite (s : State) : State :=
  match s.store.engine with
  | none => s
  | some g =>
    { s with
      store := { s.store.abandoned g.write (Config.writeTorn s.freeIndex) with engine := none }
      freeIndex := s.freeIndex + 1 }

/-- R144, RESTART: the entry or record whose write was abandoned is marked, a tare index put on the lost list. -/
def Store.markAbandoned (st : Store) (w : StoreWrite) : Store :=
  match w with
  | .tare i _ =>
    { st with tare := setAt st.tare i { st.tare.get i with status := .invalid }, lostList := [(.tare, i.val)] }
  | .cal c _ => { st with cal := setAt st.cal c { st.cal.get c with status := .suspect }, lostList := [] }
  | .deck d _ => { st with deck := setAt st.deck d { st.deck.get d with status := .suspect }, lostList := [] }
  | .lane n _ => { st with lane := setAt st.lane n { st.lane.get n with status := .suspect }, lostList := [] }
  | .yard _ => { st with yard := { st.yard with status := .suspect }, lostList := [] }

/-- R144: a RESTART abandons the write in flight and marks it. -/
def abandonMarked (s : State) : State :=
  match s.store.engine with
  | none => { s with store := { s.store with lostList := [] } }
  | some g =>
    let s1 := abandonWrite s
    { s1 with store := s1.store.markAbandoned g.write }

/-! ### The scan (R142) -/

def TareCell.scanned : TareCell → TareStatus
  | .blank => .empty
  | .emptyMarker => .empty
  | .content _ => .valid
  | .mismatch => .invalid

def SetupCell.scanned {α : Type} : SetupCell α → RecordStatus
  | .blank => .blank
  | .content _ => .valid
  | .mismatch => .invalid

/-- The record in effect after the scan: the stored one when VALID, the defaults otherwise. -/
def SetupCell.inEffect {α : Type} (default : α) : SetupCell α → α
  | .content r => r
  | .blank => default
  | .mismatch => default

/-- SETUP_BAD after the scan. -/
def SetupCell.bad {α : Type} : SetupCell α → Bool
  | .mismatch => true
  | .blank => false
  | .content _ => false

/-- A tare index judged again. -/
def TareSlot.rescan (t : TareSlot) : TareSlot := { t with status := t.cell.scanned }

/-- A setup record judged again. -/
def SetupSlot.rescan {α : Type} (t : SetupSlot α) : SetupSlot α := { t with status := t.cell.scanned }

/-- R143: the setup indices a scan found INVALID, ascending. -/
def Store.lostSetup (st : Store) : List Nat :=
  (allChans.filter (fun c => (st.cal.get c).cell.bad)).map (·.val) ++
  (allDecks.filter (fun d => (st.deck.get d).cell.bad)).map (16 + ·.val) ++
  (allLanes.filter (fun n => (st.lane.get n).cell.bad)).map (20 + ·.val) ++
  (if st.yard.cell.bad then [24] else [])

/-- R143: the lost list of a scan: the tare area first, by ascending index. -/
def Store.lost (st : Store) : List (StoreArea × Nat) :=
  (tareIndices.filter (fun i => (st.tare.get i).cell.scanned == .invalid)).map (fun i => (.tare, i.val)) ++
  st.lostSetup.map (fun i => (.setup, i))

/-- R142: statuses, the yard setup in effect and the lost list. -/
def Store.rescan (st : Store) : Store :=
  { tare := st.tare.map TareSlot.rescan, cal := st.cal.map SetupSlot.rescan, deck := st.deck.map SetupSlot.rescan
    lane := st.lane.map SetupSlot.rescan, yard := st.yard.rescan
    yardSetup := st.yard.cell.inEffect YardSetup.default, yardBad := st.yard.cell.bad, engine := none
    lostList := st.lost }

/-- R142: the scan, with the records in effect of channels, decks and lanes. -/
def scanStore (s : State) : State :=
  { s with
    store := s.store.rescan
    channels := Vector.ofFn (fun c => { s.chan c with cal := (s.store.cal.get c).cell.inEffect CalRecord.default })
    decks := Vector.ofFn (fun d =>
      { s.deck d with
        setup := (s.store.deck.get d).cell.inEffect DeckSetup.default, setupBad := (s.store.deck.get d).cell.bad })
    lanes := Vector.ofFn (fun n =>
      { s.lane n with
        setup := (s.store.lane.get n).cell.inEffect LaneSetup.default, setupBad := (s.store.lane.get n).cell.bad }) }

end Sys2Proof.Machine
end

