-- ==== Sys2Proof/Machine/CellBus.lean ====
section
/-! DEFINITION. The cell bus and the sampling period: CELL_READING (R1, R2), PERIOD_TIMER_EXPIRY (R3, R4). -/

namespace Sys2Proof.Machine

/-- R6. -/
def saturationOf (raw : Int) : Saturation :=
  if raw = 8388607 then .positive else if raw = -8388608 then .negative else .none

/-- R2: a channel that takes a reading. -/
def Channel.accept (ch : Channel) (supervised : Bool) (raw : Int) : Channel :=
  { ch with
    raw := some raw
    saturation := saturationOf raw
    missed := 0
    lost := false
    answered := true
    history := if supervised then pushBounded 32 ch.history raw else ch.history
    arrival := ch.arrival || supervised }

/-- R2, R15, R33: a reading taken; a LOST member's return reaches its deck, and a sample may form. -/
def takeReading (c : ChanId) (raw : Int) (s : State) : State :=
  let ch := s.chan c
  let s1 := s.setChan c (ch.accept (s.supervised ch) raw)
  match ch.cal.deck with
  | none => s1
  | some d => sampleIfReady d (if ch.lost then leaveFault d s1 else s1)

/-- CELL_READING (R1): a word whose check is wrong is discarded. -/
def execCellReading (c : ChanId) (raw : BitVec 24) (checkOk : Bool) (s : State) : Host.Outcome State Fault Refusal :=
  yardEvent (fun _ => checkOk) (takeReading c raw.toInt) s

/-- R4: the period just ended counts as missed for a channel. -/
def missedPeriod (s : State) (ch : Channel) : Bool := s.supervised ch && !ch.answered

/-- R4: a channel at the end of a period. -/
def Channel.endPeriod (ch : Channel) (miss : Bool) : Channel :=
  if miss then { ch with missed := min (ch.missed + 1) 3, lost := ch.lost || decide (3 ≤ ch.missed + 1), answered := false }
  else { ch with answered := false }

/-- R4: the channel becomes LOST at this expiry. -/
def becomesLost (s : State) (ch : Channel) : Bool := missedPeriod s ch && !ch.lost && decide (3 ≤ ch.missed + 1)

/-- R33: the deck of a channel just LOST is told. -/
def tellLost (c : ChanId) (s : State) : State :=
  match (s.chan c).cal.deck with
  | none => s
  | some d => enterFault d s

/-- R3, R4: the period just ended is judged, and the next starts; the convert-start it sends on the cell bus is not shown
(log entry 37). -/
def endPeriod (s : State) : State :=
  (allChans.filter (fun c => becomesLost s (s.chan c))).foldl (fun s c => tellLost c s)
    { s with
      period := some (periodLength s.store.yardSetup.p)
      channels := s.channels.map (fun ch => ch.endPeriod (missedPeriod s ch)) }

/-- PERIOD_TIMER_EXPIRY (R4). -/
def execPeriodTimerExpiry (s : State) : Host.Outcome State Fault Refusal :=
  yardEvent (fun s => s.period.isSome) endPeriod s

end Sys2Proof.Machine
end

