-- ==== Sys2Proof/Machine/RequestOps.lean ====
section
/-! DEFINITION. How a link takes a frame and answers it (R184 to R186, R189). A request's meaning gives its code, its
decoder, the roles that may send it, and what its owning block does. -/

namespace Sys2Proof.Machine

/-- What an owning block answers: the state, the status and the reply data (R186, R190). -/
structure Answer where
  state : State
  status : Status
  data : List Byte
  deriving DecidableEq, Repr

/-- A refusal: nothing changes and no data is sent (R186). -/
def refuse (st : Status) (s : State) : Answer := ⟨s, st, []⟩

/-- A request taken that touches the yard: the event is closed, in the mode it began in. -/
def taken (before s : State) (st : Status) (data : List Byte) : Answer := ⟨finish before.register.mode s, st, data⟩

/-- The checks of a rule in their order: the first that fails gives the refusal. -/
def firstFailure (checks : List (Bool × Status)) : Option Status := (checks.find? (fun p => !p.1)).map (·.2)

/-- An answer after checks. -/
def checked (checks : List (Bool × Status)) (s : State) (go : Answer) : Answer :=
  match firstFailure checks with
  | some st => refuse st s
  | none => go

/-! ### Permissions (R189) -/

def gateOffice : Role → Bool
  | .gate => true
  | .office => true
  | .kiosk => false
  | .disabled => false

def officeOnly : Role → Bool
  | .office => true
  | .gate => false
  | .kiosk => false
  | .disabled => false

def everyRole : Role → Bool
  | .gate => true
  | .office => true
  | .kiosk => true
  | .disabled => false

/-! ### Taking and answering a frame -/

/-- R184, R185: a frame becomes the pending request; the receiver hunts again. -/
def LinkState.take (k : LinkState) (code tag : Byte) : LinkState :=
  { k with rx := none, request := some ⟨tag, code, false⟩ }

/-- R185: a reply becomes waiting. -/
def LinkState.answer (k : LinkState) (r : Reply) : LinkState :=
  LinkState.kick
    { k with request := k.request.map (fun q => { q with answered := true }), replies := k.replies ++ [r] }

/-- R185: a frame that finds a pending request: BUSY, or dropped when a BUSY reply is waiting. -/
def LinkState.turnAway (k : LinkState) (code tag : Byte) : LinkState :=
  let k1 := { k with rx := none }
  if k.replies.any (fun r => r.status == .busy) then k1
  else LinkState.kick { k1 with replies := k.replies ++ [⟨tag, code, .busy, []⟩] }

/-- R186 steps 1 to 5 on a frame just taken. -/
def handle {α : Type} (l : LinkId) (allowed : Role → Bool) (fields : Option α) (body : α → State → Answer)
    (s : State) : Answer :=
  if s.power.phase = .starting then refuse .starting s
  else
    match fields with
    | none => refuse .badRequest s
    | some x => if allowed (s.link l).role then body x s else refuse .notPermitted s

/-- R185, R186: a frame received on a link. -/
def request {α : Type} (l : LinkId) (code tag : Byte) (allowed : Role → Bool) (fields : Option α)
    (body : α → State → Answer) (s : State) : State :=
  if !s.taking || (s.link l).role == .disabled then s
  else if (s.link l).request.isSome then s.setLink l ((s.link l).turnAway code tag)
  else
    let a := handle l allowed fields body (s.setLink l ((s.link l).take code tag))
    a.state.setLink l ((a.state.link l).answer ⟨tag, code, a.status, a.data⟩)

/-- A request whose block answers OK with data and changes nothing. -/
def readOnly (data : List Byte) (s : State) : Answer := ⟨s, .ok, data⟩

end Sys2Proof.Machine
end

