-- ==== Sys2Proof/Machine/DeckRequests.lean ====
section
/-! DEFINITION. The requests on decks: SPOT_WEIGH (R54), WAKE (R44), ZERO (R39), ZERO_CAL (R40), SERVICE_ENTER (R31),
SERVICE_LEAVE (R32). -/

namespace Sys2Proof.Machine

/-- R54. -/
def spotWeighBody (l : LinkId) (d : DeckId) (s : State) : Answer :=
  checked [((s.deck d).state.capturable, .deckNotReady), (!(s.unit d).busy, .deckBusy)] s
    (taken s (startCapture d (.spot l) s) .accepted [])

/-- SPOT_WEIGH. -/
def execSpotWeigh (l : LinkId) (tag : Byte) (payload : List Byte) (s : State) : Host.Outcome State Fault Refusal :=
  .next (request l 0x18 tag gateOffice (quadField? payload) (spotWeighBody l) s)

/-- R44, R47: the idle timer restarted if it runs, with the setup in effect (log entry 28). -/
def Deck.restartIdle (k : Deck) : Deck := { k with idle := if k.idle.isSome then idleTimer k.setup else none }

/-- R44. -/
def wakeBody (d : DeckId) (s : State) : Answer :=
  match (s.deck d).state with
  | .sleep => taken s (wakeForRequest d s) .ok []
  | .warming => taken s (wakeForRequest d s) .ok []
  | .active => taken s (s.setDeck d (s.deck d).restartIdle) .ok []
  | .service => ⟨s, .ok, []⟩
  | .fault => refuse .deckNotReady s
  | .unused => refuse .deckNotReady s

/-- WAKE. -/
def execWake (l : LinkId) (tag : Byte) (payload : List Byte) (s : State) : Host.Outcome State Fault Refusal :=
  .next (request l 0x19 tag gateOffice (quadField? payload) wakeBody s)

/-- R39: the deck is ACTIVE or SERVICE. -/
def DeckState.zeroable : DeckState → Bool
  | .active => true
  | .service => true
  | .unused => false
  | .sleep => false
  | .warming => false
  | .fault => false

/-- R34, R39: there is a current weight and the latest sample was judged STABLE. -/
def Deck.isSteady (k : Deck) : Bool := k.stable && k.current.isSome

/-- R39: the latest sample's A lies within the zero limit. -/
def Deck.zeroInRange (k : Deck) : Bool := k.current.any (fun w => decide ((w.a.natAbs : Int) ≤ k.setup.zeroLimit))

/-- R39: Zd becomes the A of the latest sample, ZERO_LIMIT is cleared. -/
def Deck.zeroed (k : Deck) : Deck :=
  match k.current with
  | none => k
  | some w => k.moveZero w.a false

/-- R39. -/
def zeroBody (d : DeckId) (s : State) : Answer :=
  checked
    [((s.deck d).state.zeroable, .deckNotReady), ((s.deck d).zeroCal.isEmpty, .wrongState),
     (!(s.unit d).busy, .deckBusy), (!(s.lane d).deckLoop.occupied, .zeroRange),
     ((s.deck d).isSteady, .unstable), ((s.deck d).zeroInRange, .zeroRange)] s
    ⟨s.setDeck d (s.deck d).zeroed, .ok, []⟩

/-- ZERO. -/
def execZeroDeck (l : LinkId) (tag : Byte) (payload : List Byte) (s : State) : Host.Outcome State Fault Refusal :=
  .next (request l 0x1A tag gateOffice (quadField? payload) zeroBody s)

/-- R40: the mean of the newest 2^k readings of a channel. -/
def zeroCount (k : Nat) (ch : Channel) : Int := roundDiv (newest (2 ^ k) ch.history).sum (2 ^ k)

/-- R40: the new Z values of a deck's members, in channel order. -/
def zeroCalValues (s : State) (d : DeckId) : List (ChanId × Int) :=
  (s.memberIds d).map (fun c => (c, zeroCount (s.deck d).setup.k (s.chan c)))

/-- R40, R41: the progress kept and the first write started. -/
def startZeroCal (d : DeckId) (s : State) : State :=
  let vs := zeroCalValues s d
  let s1 := s.setDeck d { s.deck d with zeroCal := vs }
  match vs with
  | [] => s1
  | (c, z) :: _ => startWrite (zeroCalWrite s1 c z) (some d) s1

/-- R40. -/
def zeroCalBody (calen : Bool) (d : DeckId) (s : State) : Answer :=
  checked
    [(calen && (s.deck d).service, .calLocked), ((s.deck d).state == .service, .deckNotReady),
     (s.store.engine.isNone, .storeBusy),
     ((s.deck d).isSteady && (s.members d).all (fun ch => decide (2 ^ (s.deck d).setup.k ≤ ch.history.length)),
       .unstable)] s
    ⟨startZeroCal d s, .accepted, []⟩

/-- ZERO_CAL. -/
def execZeroCal (l : LinkId) (tag : Byte) (payload : List Byte) (calen : Bool) (s : State) :
    Host.Outcome State Fault Refusal :=
  .next (request l 0x1B tag officeOnly (quadField? payload) (zeroCalBody calen)
    { s with power := { s.power with calen := calen } })

/-- R31: the mark set; R86: a PENDING VISIT cause of the lane withdrawn. -/
def enterService (d : DeckId) (s : State) : State :=
  let s1 := s.setDeck d { s.deck d with service := true }
  let s2 := if (s.deck d).state.capturable then deckChange d .service .none s1 else s1
  applyLane d ((s2.lane d).withdraw Cause.isVisit) s2

/-- R31. -/
def serviceEnterBody (d : DeckId) (s : State) : Answer :=
  if (s.deck d).service then refuse .wrongState s else taken s (enterService d s) .ok []

/-- SERVICE_ENTER. -/
def execServiceEnter (l : LinkId) (tag : Byte) (payload : List Byte) (s : State) : Host.Outcome State Fault Refusal :=
  .next (request l 0x1C tag officeOnly (quadField? payload) serviceEnterBody s)

/-- R32: the mark cleared; a deck in SERVICE enters ACTIVE. -/
def leaveService (d : DeckId) (s : State) : State :=
  let s1 := s.setDeck d { s.deck d with service := false }
  if (s.deck d).state = .service then deckChange d .active .none s1 else s1

/-- R32. -/
def serviceLeaveBody (d : DeckId) (s : State) : Answer :=
  if (s.deck d).service && (s.deck d).zeroCal.isEmpty then taken s (leaveService d s) .ok [] else refuse .wrongState s

/-- SERVICE_LEAVE. -/
def execServiceLeave (l : LinkId) (tag : Byte) (payload : List Byte) (s : State) : Host.Outcome State Fault Refusal :=
  .next (request l 0x1D tag officeOnly (quadField? payload) serviceLeaveBody s)

end Sys2Proof.Machine
end

