-- ==== Sys2Proof/Machine/VisitRequests.lean ====
section
/-! DEFINITION. The requests on visits and the yard mode: ADMIT, DEPART, RECAPTURE, CANCEL, CLEAR_LANE, VOID, RECLASSIFY,
SET_YARD_MODE (chapter 5). -/

namespace Sys2Proof.Machine

/-- The visit a lane is bound to (R98). -/
def State.boundVisit (s : State) (n : LaneId) : Option Visit := (s.bound n).bind s.register.find

/-! ### ADMIT (R101 to R103) -/

/-- R95: the value after one of the visit counter. -/
def nextVisit (n : Nat) : Nat := if n = 65535 then 1 else n + 1

/-- R95: the first value from one on that no visit bears; at most 96 are skipped. -/
def Register.freeNumber (r : Register) : Nat → Nat → Nat
  | 0, n => n
  | k + 1, n => if (r.find n).isSome then r.freeNumber k (nextVisit n) else n

/-- R95: the number an accepted ADMIT gives. -/
def Register.newNumber (r : Register) : Nat := r.freeNumber 96 r.counter

/-- R102: the tare entry an ADMIT can use. -/
def usableTare (s : State) (f : AdmitFields) : Option TareEntry :=
  if f.tareMode = .stored then
    match s.store.lookup f.plate with
    | some (_, e) => if e.usable s.clock.time then some e else none
    | none => none
  else none

/-- R102: the account of the visit. -/
def admitAccount (f : AdmitFields) (tare : Option TareEntry) : Option Nat :=
  match f.account with
  | some a => some a
  | none => tare.bind (·.account)

/-- R102, R103: the visit record an accepted ADMIT forms. -/
def admitVisit (s : State) (l : LinkId) (f : AdmitFields) : Visit :=
  let tare := usableTare s f
  let v : Visit :=
    { number := s.register.newNumber, plate := f.plate, account := admitAccount f tare, stream := f.stream
      direction := f.direction, tareMode := if tare.isSome then .stored else .weighed, storedTare := tare.map (·.tare)
      entryLane := f.lane, exitLane := none, first := none, second := none, state := .weighIn, failure := none
      ticket := none, admitted := s.clock.time
      flags := ⟨f.tareMode == .stored && tare.isNone, false, false, false, false, false⟩, link := l, capMark := true }
  if v.needsEntry then v else { v with state := .entering, capMark := false }

/-- R101: checks 1 to 10. -/
def admitChecks (s : State) (f : AdmitFields) (v : Visit) : List (Bool × Status) :=
  [(!s.disabled f.lane, .laneDisabled),
   ((s.lane f.lane).setup.direction == .entry, .wrongLane),
   (s.register.mode != .closed, .yardClosed),
   (s.register.mode != .closing, .yardClosing),
   ((s.bound f.lane).isNone, .lanePending),
   ((s.lane f.lane).deckLoop.occupied, .noVehicle),
   (!s.register.visits.any (fun x => x.plate == f.plate), .duplicate),
   (decide (s.register.visits.length < 96), .registerFull),
   (s.headroom, .journalFull),
   (!(s.deck f.lane).service && !(v.needsEntry && (s.deck f.lane).state == .fault), .deckNotReady)]

/-- R101: check 11, where the plan needs an entry capture. -/
def captureCheck (needed : Bool) (s : State) (d : DeckId) : Option Status := if needed then visitRefusal s d else none

/-- R103: the register with the visit appended and bound, and the VISIT notice. -/
def appendVisit (n : LaneId) (v : Visit) (s : State) : State :=
  { s with
    register := Register.bind
      { s.register with visits := s.register.visits ++ [v], counter := nextVisit v.number } n v.number
    links := offerAll s.links (.visit v.number .admitted) }

/-- R101 to R103. -/
def admitBody (l : LinkId) (f : AdmitFields) (s : State) : Answer :=
  let v := admitVisit s l f
  checked (admitChecks s f v) s
    (match captureCheck v.needsEntry s f.lane with
      | some st => refuse st s
      | none =>
        if v.needsEntry then
          taken s (appendVisit f.lane v (startCapture f.lane (.visitIn v.number) s)) .accepted (be2 v.number)
        else taken s (raiseLane f.lane (.admitted v.number) (appendVisit f.lane v s)) .ok (be2 v.number))

/-- ADMIT. -/
def execAdmitVehicle (l : LinkId) (tag : Byte) (payload : List Byte) (s : State) : Host.Outcome State Fault Refusal :=
  .next (request l 0x01 tag gateOffice (admitFields? payload) (admitBody l) s)

/-! ### DEPART (R110 to R112) -/

/-- R112: the visit as an accepted DEPART leaves it, before its capture or its release. -/
def Visit.departing (v : Visit) (n : LaneId) (unchecked : Bool) : Visit :=
  { v with exitLane := some n, flags := { v.flags with plateUnchecked := unchecked } }

/-- R110: checks 1 to 5. -/
def departLaneChecks (s : State) (n : LaneId) : List (Bool × Status) :=
  [(!s.disabled n, .laneDisabled),
   ((s.lane n).setup.direction == .exit, .wrongLane),
   (s.register.mode != .closed, .yardClosed),
   ((s.bound n).isNone, .lanePending),
   ((s.lane n).deckLoop.occupied, .noVehicle)]

/-- R110: checks 7 to 9. -/
def departVisitChecks (s : State) (f : DepartFields) (v : Visit) : List (Bool × Status) :=
  [(v.state == .onSite, .wrongState),
   (f.plate.all (fun p => p == v.plate), .mismatch),
   (!(s.deck f.lane).service && !(v.needsExit && (s.deck f.lane).state == .fault), .deckNotReady)]

/-- R112: the VISIT_OUT capture is waiting. -/
def departForCapture (n : LaneId) (v : Visit) (s : State) : State :=
  let s1 := startCapture n (.visitOut v.number) s
  { s1 with
    register := (s1.register.update v.number (fun _ => { v with state := .weighOut, capMark := true })).bind n v.number }

/-- R112: released at once. -/
def departReleased (n : LaneId) (v : Visit) (s : State) : State :=
  let s1 := releaseVisit v s
  fillAll (raiseLane n (.released v.number) { s1 with register := s1.register.bind n v.number })

/-- R110 to R112. -/
def departBody (f : DepartFields) (s : State) : Answer :=
  checked (departLaneChecks s f.lane) s
    (match s.register.find f.visit with
      | none => refuse .noSuchVisit s
      | some v =>
        checked (departVisitChecks s f v) s
          (match captureCheck v.needsExit s f.lane with
            | some st => refuse st s
            | none =>
              let w := v.departing f.lane f.plate.isNone
              if v.needsExit then taken s (departForCapture f.lane w s) .accepted (be4 0)
              else taken s (departReleased f.lane w s) .ok (be4 (orZero s.journal.counter))))

/-- DEPART. -/
def execDepart (l : LinkId) (tag : Byte) (payload : List Byte) (s : State) : Host.Outcome State Fault Refusal :=
  .next (request l 0x02 tag everyRole (departFields? payload) departBody s)

/-! ### RECAPTURE (R108) -/

/-- The unit waits for a visit (R97). -/
def State.waitingFor (s : State) (d : DeckId) (v : Nat) : Bool :=
  (s.unit d).cap.any (fun c => c.owner == .visitIn v || c.owner == .visitOut v)

/-- R108: the new capture and the mark. -/
def recaptureVisit (n : LaneId) (v : Visit) (s : State) : State :=
  let s1 := startCapture n (.visitIn v.number) s
  { s1 with register := s1.register.update v.number (fun x => { x with capMark := true }) }

/-- R108. -/
def recaptureBody (n : LaneId) (s : State) : Answer :=
  checked [(!s.disabled n, .laneDisabled), (s.register.mode != .closed, .yardClosed)] s
    (match s.boundVisit n with
      | none => refuse .wrongState s
      | some v =>
        checked [(v.state == .weighIn, .wrongState), (!s.waitingFor n v.number, .deckBusy)] s
          (match visitRefusal s n with
            | some st => refuse st s
            | none => taken s (recaptureVisit n v s) .accepted []))

/-- RECAPTURE. -/
def execRecapture (l : LinkId) (tag : Byte) (payload : List Byte) (s : State) : Host.Outcome State Fault Refusal :=
  .next (request l 0x03 tag gateOffice (quadField? payload) recaptureBody s)

/-! ### CANCEL (R109), CLEAR_LANE (R117), VOID (R118), RECLASSIFY (R120) -/

/-- R109: the visit leaves, its capture is ended, VISIT "cancelled". -/
def cancelVisit (n : LaneId) (v : Nat) (s : State) : State :=
  (endVisitCapture n v { s with register := s.register.leave v }).offerAll (.visit v .cancelled)

/-- R109. -/
def cancelBody (n : LaneId) (s : State) : Answer :=
  checked [(!s.disabled n, .laneDisabled)] s
    (match s.boundVisit n with
      | none => refuse .wrongState s
      | some v => if v.state = .weighIn then taken s (cancelVisit n v.number s) .ok [] else refuse .wrongState s)

/-- CANCEL. -/
def execCancel (l : LinkId) (tag : Byte) (payload : List Byte) (s : State) : Host.Outcome State Fault Refusal :=
  .next (request l 0x04 tag gateOffice (quadField? payload) cancelBody s)

/-- R117: the cause withdrawn, the visit leaves, VISIT "removed without passage". -/
def clearVisit (n : LaneId) (v : Nat) (s : State) : State :=
  let s1 := withdrawLane n v s
  { s1 with register := s1.register.leave v, links := offerAll s1.links (.visit v .removedWithoutPassage) }

/-- R117. -/
def clearLaneBody (n : LaneId) (s : State) : Answer :=
  checked [(!s.disabled n, .laneDisabled)] s
    (match s.boundVisit n with
      | none => refuse .wrongState s
      | some v => if v.state = .released then taken s (clearVisit n v.number s) .ok [] else refuse .wrongState s)

/-- CLEAR_LANE. -/
def execClearLane (l : LinkId) (tag : Byte) (payload : List Byte) (s : State) : Host.Outcome State Fault Refusal :=
  .next (request l 0x06 tag gateOffice (quadField? payload) clearLaneBody s)

/-- R118: the lane that serves a visit, if one does. -/
def Visit.laneOf (v : Visit) : Option LaneId :=
  match v.state with
  | .weighIn => some v.entryLane
  | .entering => some v.entryLane
  | .onSite => none
  | .weighOut => v.exitLane
  | .released => v.exitLane

/-- An operation on a lane, where there is one. -/
def onLane (n : Option LaneId) (f : LaneId → State → State) (s : State) : State :=
  match n with
  | none => s
  | some n => f n s

/-- R118, R119: the VOID record written, the cause withdrawn, the visit gone, its fills, and last the end request. -/
def voidRecorded (v : Visit) (s : State) : State :=
  let s1 := onLane v.laneOf (fun n s => withdrawLane n v.number s) (writeRecord (v.voidTicket s.clock.time) s)
  let s2 := { s1 with register := s1.register.leave v.number, links := offerAll s1.links (.visit v.number .voided) }
  onLane v.laneOf (fun n s => endVisitCapture n v.number s) (fillAll s2)

/-- R118. -/
def voidBody (num : Nat) (s : State) : Answer :=
  match s.register.find num with
  | none => refuse .noSuchVisit s
  | some v =>
    match v.state with
    | .weighIn => taken s (cancelVisit v.entryLane v.number s) .ok []
    | .entering => taken s (voidRecorded v s) .ok []
    | .onSite => taken s (voidRecorded v s) .ok []
    | .weighOut => taken s (voidRecorded v s) .ok []
    | .released => refuse .alreadyTicketed s

/-- VOID. -/
def execVoidVisit (l : LinkId) (tag : Byte) (payload : List Byte) (s : State) : Host.Outcome State Fault Refusal :=
  .next (request l 0x07 tag gateOffice (visitField? payload) voidBody s)

/-- R120: the visit with its new stream. -/
def Visit.reclassified (v : Visit) (stream : Nat) : Visit :=
  { v with stream := stream, flags := { v.flags with reclassified := true } }

/-- R120. -/
def reclassifyBody (f : Nat × Nat) (s : State) : Answer :=
  match s.register.find f.1 with
  | none => refuse .noSuchVisit s
  | some v =>
    if v.state = .released then refuse .alreadyTicketed s
    else
      ⟨{ s with
          register := s.register.update f.1 (fun x => x.reclassified f.2)
          links := offerAll s.links (.visit f.1 .reclassified) }, .ok, []⟩

/-- RECLASSIFY. -/
def execReclassify (l : LinkId) (tag : Byte) (payload : List Byte) (s : State) : Host.Outcome State Fault Refusal :=
  .next (request l 0x08 tag gateOffice (reclassifyFields? payload) reclassifyBody s)

/-! ### SET_YARD_MODE (R123 to R126) -/

/-- R125: what FORCE_CLOSED does for one visit. -/
def forceVisit (v : Visit) (s : State) : State :=
  match v.state with
  | .weighIn => onLane v.laneOf (fun n s => endVisitCapture n v.number s) s
  | .entering => onLane v.laneOf (fun n s => withdrawLane n v.number s) s
  | .onSite => s
  | .weighOut => onLane v.laneOf (fun n s => endVisitCapture n v.number s) s
  | .released => onLane v.laneOf (fun n s => withdrawLane n v.number s) s

/-- The visits in the order of R125's table, each state in admission order (log entry 12). -/
def Register.forceOrder (r : Register) : List Visit :=
  [VisitState.weighIn, .entering, .weighOut, .released].flatMap (fun st => r.visits.filter (fun v => v.state == st))

/-- R125: the visits, then the mode and the decks (R126, R48). -/
def forceClosed (s : State) : State :=
  becomeClosed (s.register.forceOrder.foldl (fun s v => forceVisit v s) s)

/-- A change of mode. -/
def State.withMode (s : State) (m : YardMode) : State := { s with register := { s.register with mode := m } }

/-- R123: an empty register that begins CLOSING is CLOSED by the close of the event (R124). -/
def yardModeBody (m : ModeAsked) (s : State) : Answer :=
  match s.register.mode, m with
  | .opened, .opened => ⟨s, .ok, []⟩
  | .opened, .closing => taken s (s.withMode .closing) .ok []
  | .opened, .forceClosed => taken s (forceClosed s) .ok []
  | .closing, .opened => taken s (s.withMode .opened) .ok []
  | .closing, .closing => ⟨s, .ok, []⟩
  | .closing, .forceClosed => taken s (forceClosed s) .ok []
  | .closed, .opened =>
    if s.clock.isSet && s.journal.counter.isSome then taken s (s.withMode .opened) .ok [] else refuse .clockUnset s
  | .closed, .closing => refuse .wrongState s
  | .closed, .forceClosed => refuse .wrongState s

/-- SET_YARD_MODE. -/
def execSetYardMode (l : LinkId) (tag : Byte) (payload : List Byte) (s : State) : Host.Outcome State Fault Refusal :=
  .next (request l 0x28 tag officeOnly (modeField? payload) yardModeBody s)

end Sys2Proof.Machine
end

