-- ==== Sys2Proof/Machine/LaneRequests.lean ====
section
/-! DEFINITION. The requests on the barrier: RERAISE (R90), MANUAL_RAISE (R88), LOWER_RESET (R89). -/

namespace Sys2Proof.Machine

/-- R90: the cause a RERAISE gives; none where the bound visit is in no fitting state. -/
def reraiseCause (s : State) (n : LaneId) : Option CauseKind :=
  match s.boundVisit n with
  | none => none
  | some v =>
    match v.state, (s.lane n).setup.direction with
    | .entering, .entry => some (.admitted v.number)
    | .released, .exit => some (.released v.number)
    | _, _ => none

/-- R90. -/
def reraiseBody (n : LaneId) (s : State) : Answer :=
  checked [(!s.disabled n, .laneDisabled), (s.register.mode != .closed, .yardClosed)] s
    (match reraiseCause s n with
      | none => refuse .wrongState s
      | some c =>
        checked
          [(!(s.deck n).service, .wrongState), ((s.lane n).barrier == .down, .wrongState),
           ((s.lane n).deckLoop.occupied, .noVehicle)] s
          (taken s (raiseLane n c s) .ok []))

/-- RERAISE. -/
def execReraise (l : LinkId) (tag : Byte) (payload : List Byte) (s : State) : Host.Outcome State Fault Refusal :=
  .next (request l 0x05 tag everyRole (quadField? payload) reraiseBody s)

/-- R88. -/
def manualRaiseBody (n : LaneId) (s : State) : Answer := taken s (applyLane n (s.lane n).manualRaise s) .ok []

/-- MANUAL_RAISE. -/
def execManualRaise (l : LinkId) (tag : Byte) (payload : List Byte) (s : State) : Host.Outcome State Fault Refusal :=
  .next (request l 0x10 tag gateOffice (quadField? payload) manualRaiseBody s)

/-- R89. -/
def lowerResetBody (n : LaneId) (s : State) : Answer :=
  checked [(!s.disabled n, .laneDisabled)] s
    (match (s.lane n).lowerReset with
      | none => refuse .wrongState s
      | some r => taken s (applyLane n r s) .ok [])

/-- LOWER_RESET. -/
def execLowerReset (l : LinkId) (tag : Byte) (payload : List Byte) (s : State) : Host.Outcome State Fault Refusal :=
  .next (request l 0x11 tag gateOffice (quadField? payload) lowerResetBody s)

end Sys2Proof.Machine
end

