-- ==== Sys2Proof/Machine/StartUpOps.lean ====
section
/-! DEFINITION. Resets and start-up (chapter 10, and the reset table of every chapter): what is cleared, the backup check,
the come-ups in the order of R204. -/

namespace Sys2Proof.Machine

/-! ### Step 1: working state cleared -/

/-- R8; the record in effect stays until the scan. -/
def Channel.cleared (ch : Channel) : Channel := { Channel.reset with cal := ch.cal }

/-- R27, R50 before the state is chosen; setup, SETUP_BAD, service mark, Zd and the wake mask copy stay. -/
def Deck.cleared (k : Deck) : Deck :=
  { Deck.reset with setup := k.setup, setupBad := k.setupBad, service := k.service, zd := k.zd, wakeMask := k.wakeMask }

/-- R181, R188: the link before its straps are read again; the mask is in the backup domain. -/
def LinkState.cleared (k : LinkState) : LinkState :=
  { speed := k.speed, role := k.role, rx := none, request := none, replies := [], tx := none, queue := []
    mask := k.mask, overrun := false }

/-- R162, R172: what a reset takes at once from a link's place in the journal; role, cursor and slot count stay. -/
def JournalLink.cleared (k : JournalLink) : JournalLink :=
  { k with gap := 0, even := none, odd := none, next := .even, halt := false }

/-- R204 step 1: all outputs inactive, all working state cleared; the store's and the backup domain's contents and the
records in effect stay. -/
def clearWorking (s : State) : State :=
  { s with
    channels := s.channels.map Channel.cleared
    period := none
    decks := s.decks.map Deck.cleared
    units := Vector.replicate 4 CaptureUnit.reset
    lanes := s.lanes.map Lane.cleared
    journal := { s.journal with low := false, links := s.journal.links.map JournalLink.cleared }
    links := s.links.map LinkState.cleared
    power := { s.power with phase := .starting, restartDue := false } }

/-- R200, R202: the part stops taking events: the write in flight is abandoned and every output inactive (log entry
24). -/
def halt (s : State) : State := clearWorking (abandonWrite s)

/-! ### Step 2: the straps (R182) -/

def roleOf (r : BitVec 2) : Role :=
  if r = 0 then .gate else if r = 1 then .office else if r = 2 then .kiosk else .disabled

/-- R182, R188. -/
def LinkState.strapped (k : LinkState) (p : LinkStraps) : LinkState :=
  { k.cleared with speed := p.speed, role := roleOf p.role }

/-- R204 steps 1 and 2, with the reset kind recorded. -/
def beginStart (kind : ResetKind) (straps : Straps) (s : State) : State :=
  let s1 := clearWorking s
  { s1 with
    links := Vector.ofFn (fun l => (s1.link l).strapped (straps.get l))
    power := { s1.power with lastKind := kind, lastCheck := .notChecked
                             checkPending := s1.power.checkPending || kind == .powerOn } }

/-! ### Step 4: the backup check (R201) -/

/-- R176. -/
def defaultMask : Role → BitVec 8
  | .gate => 0x67
  | .office => 0x7F
  | .kiosk => 0x44
  | .disabled => 0x00

/-- R201: the contents after clearing. -/
def clearBackup (s : State) : State :=
  { s with
    clock := ⟨0, false, 0⟩
    register := Register.reset
    journal := Journal.reset
    links := s.links.map (fun k => { k with mask := defaultMask k.role })
    decks := s.decks.map (fun k => { k with zd := 0, service := false }) }

/-- R201, R202: the check, made when check-pending is set; the start-up is then recorded as a POWER_ON. -/
def backupCheck (s : State) : State :=
  if s.power.checkPending then
    let s1 := if s.power.backupValid then s else clearBackup s
    { s1 with power := { s.power with
        lastKind := .powerOn, lastCheck := if s.power.backupValid then .valid else .cleared
        backupValid := true, checkPending := false } }
  else s

/-! ### Steps 6 to 14: the come-ups -/

/-- R128: a visit that lives through a reset. -/
def Visit.afterReset (v : Visit) : Visit :=
  let v1 := { v with flags := { v.flags with restartSeen := true }, capMark := false }
  match v.state with
  | .weighIn => if v.capMark then { v1 with failure := some .aborted } else v1
  | .weighOut => { v1 with state := .onSite, exitLane := none, failure := some .aborted }
  | .entering => v1
  | .onSite => v1
  | .released => v1

/-- R128: a binding after a reset: that of a WEIGH_OUT visit ends. -/
def Register.bindingAfterReset (r : Register) (b : Option Nat) : Option Nat :=
  match b with
  | none => none
  | some v => if (r.find v).any (fun x => x.state == .weighOut) then none else some v

/-- R128. -/
def Register.afterReset (r : Register) : Register :=
  { r with visits := r.visits.map Visit.afterReset, bindings := r.bindings.map r.bindingAfterReset }

/-- R128: the direction a bound visit's state needs. -/
def boundDirection (r : Register) (b : Option Nat) : Option Direction :=
  match b.bind r.find with
  | none => none
  | some v => some (if v.state = .released then .exit else .entry)

/-- R128: the register comes up; a bound lane keeps the direction of its binding. -/
def registerUp (s : State) : State :=
  let r := s.register.afterReset
  { s with
    register := r
    lanes := Vector.ofFn (fun n =>
      { s.lane n with setup := { (s.lane n).setup with
          direction := (boundDirection r (r.bindings.get n)).getD (s.lane n).setup.direction } }) }

/-- R8: the cell interface comes up and starts its period timer; the convert-start is not shown (log entry 37). -/
def cellsUp (s : State) : State := { s with period := some (periodLength s.store.yardSetup.p) }

/-- R42, R50: a deck's Zd clamped, ZERO_LIMIT set at the limit, the wake mask copied. -/
def Deck.comeUp (k : Deck) (mask : WakeMask) : Deck :=
  let zd := clampTo k.setup.zeroLimit k.zd
  let zl := decide ((zd.natAbs : Int) = k.setup.zeroLimit)
  { k with zd := zd, zeroLimit := zl, zeroLimitAtSample := zl, wakeMask := mask }

/-- R50: the state a deck comes up in. -/
def firstState (s : State) (d : DeckId) : DeckState :=
  if (s.deck d).setupBad || (s.members d).isEmpty then .unused else usableState s d

/-- R50: the deck engines come up, each entering the state chosen. -/
def decksUp (s : State) : State :=
  let s1 := { s with decks := Vector.ofFn (fun d => (s.deck d).comeUp (s.lane d).setup.wake) }
  allDecks.foldl (fun s d => enterDeck d (firstState s d) .request s) s1

/-- R87, R91: the lanes come up, each producing a status word. -/
def lanesUp (s : State) : State :=
  let s1 := { s with lanes := s.lanes.map Lane.comeUp }
  { s1 with
    lanes := Vector.ofFn (fun n => { s1.lane n with word := statusWord s1 n })
    links := allLanes.foldl (fun ks n => offerAll ks (.laneStatus (statusWord s1 n))) s1.links }

/-- R143: the store comes up. -/
def storeUp (s : State) : State :=
  { s with
    store := { s.store with lostList := [] }
    links := s.store.lostList.foldl (fun ks p => offerAll ks (.storeLost p.1 p.2)) s.links }

/-- R162, R163, R164: the journal comes up. -/
def journalUp (s : State) : State :=
  judgeLow
    { s with journal := { s.journal with
        low := false
        links := Vector.ofFn (fun l => (s.jlink l).afterReset s.journal.records (s.link l).role) } }

/-- R205: start-up ends, with one overstay judgment. -/
def endStart (s : State) : State := judgeOverstay { s with power := { s.power with phase := .running } }

/-- R204 steps 5 to 14. -/
def comeUps (s : State) : State :=
  endStart (fillAll (journalUp (storeUp (lanesUp (decksUp (cellsUp (registerUp s)))))))

end Sys2Proof.Machine
end

