-- ==== Sys2Proof/Machine/LineEvents.lean ====
section
/-! DEFINITION. What happens on the lines of the links (R184, R180), and supply, reset and start-up (chapter 10). -/

namespace Sys2Proof.Machine

/-! ### Receiver (R184) -/

/-- The receiver of an enabled link, while the part takes events. -/
def State.hears (s : State) (l : LinkId) : Bool := s.taking && (s.link l).role != .disabled

/-- The bytes of the frame in reception discarded. -/
def dropFrame (l : LinkId) (s : State) : State :=
  if s.hears l then s.setLink l { s.link l with rx := none } else s

/-- BAD_FRAME (R184): length, stop bit or CRC; no reply, no other change. -/
def execBadFrame (l : LinkId) (_why : FrameFault) (s : State) : Host.Outcome State Fault Refusal := .next (dropFrame l s)

/-- FRAME_GAP_TIMEOUT (R184). -/
def execFrameGapTimeout (l : LinkId) (s : State) : Host.Outcome State Fault Refusal := .next (dropFrame l s)

/-- R184: a byte 0xC3 starts a frame while HUNTING and is data inside one. -/
def LinkState.leadByte (k : LinkState) : LinkState :=
  match k.rx with
  | none => { k with rx := some [0xC3] }
  | some bs => if bs.length < 204 then { k with rx := some (bs ++ [0xC3]) } else k

/-- FRAME_LEAD_BYTE (R184). -/
def execFrameLeadByte (l : LinkId) (s : State) : Host.Outcome State Fault Refusal :=
  .next (if s.hears l then s.setLink l (s.link l).leadByte else s)

/-! ### Transmitter (R180, R185, R203) -/

/-- The ACCEPTED reply to a RESTART (R203). -/
def Reply.isRestart (r : Reply) : Bool := r.code == 0x2C && r.status == .accepted

/-- The link is sending that reply. -/
def LinkState.restarting (k : LinkState) : Bool :=
  match k.tx with
  | some (.reply r) => r.isRestart
  | some (.notice _) => false
  | none => false

/-- R185: the frame sent to its end was the pending request's own reply. -/
def LinkState.endsRequest (k : LinkState) : Bool :=
  match k.tx with
  | some (.reply r) => r.status != .busy
  | some (.notice _) => false
  | none => false

/-- R180, R185: the frame has been sent to its end, before the next one starts. -/
def LinkState.frameEnded (k : LinkState) : LinkState :=
  { k with tx := none, request := if k.endsRequest then none else k.request }

/-- R180, R203: after the ACCEPTED reply to RESTART nothing more is started. -/
def frameSent (l : LinkId) (s : State) : State :=
  let k := s.link l
  if k.restarting then { s.setLink l k.frameEnded with power := { s.power with restartDue := true } }
  else s.setLink l k.frameEnded.kick

/-- FRAME_SENT (R180). -/
def execFrameSent (l : LinkId) (s : State) : Host.Outcome State Fault Refusal :=
  .next (if s.hears l && (s.link l).tx.isSome then frameSent l s else s)

/-! ### Supply and reset (R200 to R205) -/

/-- R203: a restart can begin (log entry 15). -/
def State.restartWaits (s : State) : Bool := s.power.restartDue || s.links.toList.any LinkState.restarting

/-- RESTART_BEGIN (R203, R204, R144): no scan, no backup check. -/
def execRestartBegin (straps : Straps) (s : State) : Host.Outcome State Fault Refusal :=
  .next (if s.up && s.restartWaits then comeUps (abandonMarked (beginStart .restart straps s)) else s)

/-- POWER_ON (R202, R204): start-up begins, or is held while the reset input is asserted (log entry 23). -/
def execPowerOn (straps : Straps) (s : State) : Host.Outcome State Fault Refusal :=
  let s1 := abandonWrite { s with power := { s.power with main := true, checkPending := true } }
  .next (if s.power.resetPin then clearWorking s1 else beginStart .powerOn straps s1)

/-- RESET_PIN_ASSERT (R202). -/
def execResetPinAssert (s : State) : Host.Outcome State Fault Refusal :=
  .next (halt { s with power := { s.power with resetPin := true } })

/-- RESET_PIN_RELEASE (R202, R204). -/
def execResetPinRelease (straps : Straps) (s : State) : Host.Outcome State Fault Refusal :=
  let s1 := { s with power := { s.power with resetPin := false } }
  .next (if s.power.resetPin && s.power.main then beginStart .resetPin straps s1 else s1)

/-- STORE_SCAN_DONE (R142, R204): scan, backup check, come-ups, end of start-up. -/
def execStoreScanDone (s : State) : Host.Outcome State Fault Refusal :=
  .next (if s.taking && s.power.phase == .starting then comeUps (backupCheck (scanStore s)) else s)

/-- MAIN_SUPPLY_LOSS (R200). -/
def execMainSupplyLoss (s : State) : Host.Outcome State Fault Refusal :=
  .next (if s.power.main then halt { s with power := { s.power with main := false } } else s)

/-- BACKUP_SUPPLY_FAIL (R201): it tells only while the main supply is absent. -/
def execBackupSupplyFail (s : State) : Host.Outcome State Fault Refusal :=
  .next (if s.power.main then s else { s with power := { s.power with backupValid := false } })

end Sys2Proof.Machine
end

