-- ==== Sys2Proof/Machine/SlotRequests.lean ====
section
/-! DEFINITION. The requests on a link's own slots, subscription and journal role: SLOT_READ (R168), SLOT_RETURN (R169),
SLOT_HALT and SLOT_RESUME (R170), SET_SUBSCRIPTION (R175), SET_JOURNAL_ROLE (R154, R171). -/

namespace Sys2Proof.Machine

/-- R168: slot pair status, then the record. -/
def slotReadBody (l : LinkId) (i : SlotId) (s : State) : Answer :=
  match (s.jlink l).slot i with
  | none => refuse .notOwned s
  | some t => readOnly (slotStatus s l ++ t.bytes) s

/-- SLOT_READ. -/
def execSlotRead (l : LinkId) (tag : Byte) (payload : List Byte) (s : State) : Host.Outcome State Fault Refusal :=
  .next (request l 0x38 tag everyRole (slotField? payload) (slotReadBody l) s)

/-- R169: the other slot is PART-owned or holds the newer record; of two LINK-owned slots the next-fill slot holds the
older (R166). -/
def JournalLink.inOrder (k : JournalLink) (i : SlotId) : Bool := (k.slot i.other).isNone || k.next == i

/-- R169: the slot given back, the fills that follow, the margin judged (R158). -/
def returnSlot (l : LinkId) (i : SlotId) (s : State) : State :=
  judgeLow (fillLink l (s.setJlink l ((s.jlink l).giveBack i)))

/-- R169. -/
def slotReturnBody (l : LinkId) (i : SlotId) (s : State) : Answer :=
  match (s.jlink l).slot i with
  | none => refuse .notOwned s
  | some t =>
    if (s.jlink l).inOrder i then
      ⟨returnSlot l i s, .ok, be4 t.number ++ slotStatus (returnSlot l i s) l⟩
    else refuse .outOfOrder s

/-- SLOT_RETURN. -/
def execSlotReturn (l : LinkId) (tag : Byte) (payload : List Byte) (s : State) : Host.Outcome State Fault Refusal :=
  .next (request l 0x39 tag everyRole (slotField? payload) (slotReturnBody l) s)

/-- The link's pair with HALT set or cleared. -/
def State.setHalt (s : State) (l : LinkId) (b : Bool) : State := s.setJlink l { s.jlink l with halt := b }

/-- SLOT_HALT (R170). -/
def execSlotHalt (l : LinkId) (tag : Byte) (payload : List Byte) (s : State) : Host.Outcome State Fault Refusal :=
  .next (request l 0x3A tag everyRole (noFields? payload)
    (fun _ s => ⟨s.setHalt l true, .ok, slotStatus (s.setHalt l true) l⟩) s)

/-- R170: HALT cleared and the fill conditions judged. -/
def resumeSlots (l : LinkId) (s : State) : State := fillLink l (s.setHalt l false)

/-- SLOT_RESUME (R170). -/
def execSlotResume (l : LinkId) (tag : Byte) (payload : List Byte) (s : State) : Host.Outcome State Fault Refusal :=
  .next (request l 0x3B tag everyRole (noFields? payload)
    (fun _ s => ⟨resumeSlots l s, .ok, slotStatus (resumeSlots l s) l⟩) s)

/-- SET_SUBSCRIPTION (R175). -/
def execSetSubscription (l : LinkId) (tag : Byte) (payload : List Byte) (s : State) : Host.Outcome State Fault Refusal :=
  .next (request l 0x3C tag everyRole (maskField? payload)
    (fun m s => ⟨s.setLink l { s.link l with mask := m }, .ok, [m]⟩) s)

/-- R154, R158: the role taken, holds released, the margin judged. -/
def takeJournalRole (l : LinkId) (r : JournalRole) (s : State) : State :=
  judgeLow (s.setJlink l ((s.jlink l).takeRole r))

/-- R154: a KIOSK link cannot take HOLD. -/
def journalRoleBody (l : LinkId) (r : JournalRole) (s : State) : Answer :=
  if (s.link l).role = .kiosk ∧ r = .hold then refuse .notPermitted s
  else
    let s1 := takeJournalRole l r s
    ⟨s1, .ok, s1.journal.cursorBytes (s1.jlink l).cursor⟩

/-- SET_JOURNAL_ROLE. -/
def execSetJournalRole (l : LinkId) (tag : Byte) (payload : List Byte) (s : State) : Host.Outcome State Fault Refusal :=
  .next (request l 0x3D tag everyRole (roleField? payload) (journalRoleBody l) s)

end Sys2Proof.Machine
end

