-- ==== Sys2Proof/Machine/StoreRequests.lean ====
section
/-! DEFINITION. The requests on the store: TARE_WRITE (R133), TARE_ERASE (R134), TARE_READ (R135), SETUP_WRITE (R136),
SETUP_READ (R141). -/

namespace Sys2Proof.Machine

/-- R133. -/
def tareWriteBody (e : TareEntry) (s : State) : Answer :=
  if s.store.engine.isSome then refuse .storeBusy s
  else
    match s.store.placeFor e.plate with
    | none => refuse .storeFull s
    | some i => ⟨startWrite (.tare i (some e)) none s, .accepted, be1 i.val⟩

/-- TARE_WRITE. -/
def execTareWrite (l : LinkId) (tag : Byte) (payload : List Byte) (s : State) : Host.Outcome State Fault Refusal :=
  .next (request l 0x20 tag officeOnly (tareWriteFields? payload) tareWriteBody s)

/-- R134. -/
def tareEraseBody (p : Plate) (s : State) : Answer :=
  if s.store.engine.isSome then refuse .storeBusy s
  else
    match s.store.lookup p with
    | none => refuse .notFound s
    | some (i, _) => ⟨startWrite (.tare i none) none s, .accepted, be1 i.val⟩

/-- TARE_ERASE. -/
def execTareErase (l : LinkId) (tag : Byte) (payload : List Byte) (s : State) : Host.Outcome State Fault Refusal :=
  .next (request l 0x21 tag officeOnly (plateField? payload) tareEraseBody s)

/-- R135. -/
def tareReadBody (f : TareReadForm) (s : State) : Answer :=
  match f with
  | .byIndex i => readOnly (tareByIndexData s i) s
  | .byPlate p =>
    match s.store.lookup p with
    | none => refuse .notFound s
    | some (i, e) => readOnly (tareByPlateData s i e) s

/-- TARE_READ. -/
def execTareRead (l : LinkId) (tag : Byte) (payload : List Byte) (s : State) : Host.Outcome State Fault Refusal :=
  .next (request l 0x22 tag everyRole (tareReadFields? payload) tareReadBody s)

/-- R136. -/
def setupWriteBody (calen : Bool) (g : SetupGiven) (s : State) : Answer :=
  match setupChecks s calen g with
  | .error st => refuse st s
  | .ok w => ⟨startWrite w none s, .accepted, []⟩

/-- SETUP_WRITE. -/
def execSetupWrite (l : LinkId) (tag : Byte) (payload : List Byte) (calen : Bool) (s : State) :
    Host.Outcome State Fault Refusal :=
  .next (request l 0x23 tag officeOnly (setupWriteFields? payload) (setupWriteBody calen)
    { s with power := { s.power with calen := calen } })

/-- SETUP_READ (R141). -/
def execSetupRead (l : LinkId) (tag : Byte) (payload : List Byte) (calen : Bool) (s : State) :
    Host.Outcome State Fault Refusal :=
  .next (request l 0x24 tag everyRole (setupIndexField? payload) (fun i s => readOnly (setupReadData s i calen) s)
    { s with power := { s.power with calen := calen } })

end Sys2Proof.Machine
end

