-- ==== Sys2Proof/Machine/SystemRequests.lean ====
section
/-! DEFINITION. Clock, ticket base, restart and identity (R149, R198, R199, R203, R206), the reads (R26, R92, R127, R160)
and a frame of unknown kind (R186). -/

namespace Sys2Proof.Machine

/-- R198: yard time set, the sub-second count restarted, overstay judged. -/
def setClockBody (t : Nat) (s : State) : Answer := ⟨judgeOverstay { s with clock := ⟨t, true, 0⟩ }, .ok, []⟩

/-- SET_CLOCK. -/
def execSetClock (l : LinkId) (tag : Byte) (payload : List Byte) (s : State) : Host.Outcome State Fault Refusal :=
  .next (request l 0x29 tag officeOnly (wordField? payload) setClockBody s)

/-- READ_CLOCK (R199). -/
def execReadClock (l : LinkId) (tag : Byte) (payload : List Byte) (s : State) : Host.Outcome State Fault Refusal :=
  .next (request l 0x2A tag everyRole (noFields? payload) (fun _ s => readOnly (readClockData s) s) s)

/-- R149. -/
def ticketBaseBody (n : Nat) (s : State) : Answer :=
  if s.journal.counter.isSome then refuse .wrongState s
  else ⟨{ s with journal := { s.journal with counter := some n } }, .ok, []⟩

/-- SET_TICKET_BASE. -/
def execSetTicketBase (l : LinkId) (tag : Byte) (payload : List Byte) (s : State) : Host.Outcome State Fault Refusal :=
  .next (request l 0x2B tag officeOnly (ticketBase? payload) ticketBaseBody s)

/-- RESTART (R203): answered ACCEPTED; the restart begins when that reply has been sent to its end. -/
def execRestart (l : LinkId) (tag : Byte) (payload : List Byte) (s : State) : Host.Outcome State Fault Refusal :=
  .next (request l 0x2C tag officeOnly (noFields? payload) (fun _ s => ⟨s, .accepted, []⟩) s)

/-- IDENTIFY (R206). -/
def execIdentify (l : LinkId) (tag : Byte) (payload : List Byte) (s : State) : Host.Outcome State Fault Refusal :=
  .next (request l 0x2D tag everyRole (noFields? payload) (fun _ s => readOnly (identifyData s l) s) s)

/-- READ_DECK (R26, R49, R68). -/
def execReadDeck (l : LinkId) (tag : Byte) (payload : List Byte) (s : State) : Host.Outcome State Fault Refusal :=
  .next (request l 0x30 tag everyRole (quadField? payload) (fun d s => readOnly (readDeckData s d) s) s)

/-- READ_LANE (R92); taken on a disabled lane too (R72). -/
def execReadLane (l : LinkId) (tag : Byte) (payload : List Byte) (s : State) : Host.Outcome State Fault Refusal :=
  .next (request l 0x31 tag everyRole (quadField? payload) (fun n s => readOnly (readLaneData s n) s) s)

/-- R127. -/
def readVisitBody (v : Nat) (s : State) : Answer :=
  match s.register.find v with
  | none => refuse .noSuchVisit s
  | some x => readOnly x.bytes s

/-- READ_VISIT. -/
def execReadVisit (l : LinkId) (tag : Byte) (payload : List Byte) (s : State) : Host.Outcome State Fault Refusal :=
  .next (request l 0x32 tag everyRole (visitField? payload) readVisitBody s)

/-- LIST_VISITS (R127, R194). -/
def execListVisits (l : LinkId) (tag : Byte) (payload : List Byte) (s : State) : Host.Outcome State Fault Refusal :=
  .next (request l 0x33 tag everyRole (listFields? payload) (fun f s => readOnly (listVisitsData s f.1 f.2) s) s)

/-- R161: the outstanding count of a link, for a HOLD link. -/
def outstandingField (s : State) (l : LinkId) : List Byte :=
  if (s.jlink l).role = .hold then be4 ((s.jlink l).outstanding s.journal.records) else word4 Config.outstandingAbsent

/-- R161: the gap tally of a link, for a FOLLOW link. -/
def gapField (s : State) (l : LinkId) : List Byte :=
  if (s.jlink l).role = .follow then be4 (s.jlink l).gap else word4 Config.gapTallyAbsent

/-- R161: the journal summary, in row order. -/
def journalSummary (s : State) : List Byte :=
  be4 s.journal.records.length ++ be4 (orZero (s.journal.records.head?.map (·.number))) ++
  be4 (orZero s.journal.counter) ++ be4 s.journal.held ++ be4 s.register.unreleased ++ signed4 s.margin ++
  yesNo s.journal.low ++ allLinks.flatMap (fun l => be1 (s.jlink l).role.code) ++
  allLinks.flatMap (fun l => s.journal.cursorBytes (s.jlink l).cursor) ++
  allLinks.flatMap (fun l => be1 (s.jlink l).slotCount) ++ allLinks.flatMap (outstandingField s) ++
  allLinks.flatMap (gapField s)

/-- R160: a record with the summary, or the summary alone for 0. -/
def readTicketBody (n : Nat) (s : State) : Answer :=
  if n = 0 then readOnly (journalSummary s) s
  else
    match s.journal.records.find? (fun t => t.number == n) with
    | none => refuse .notFound s
    | some t => readOnly (journalSummary s ++ t.bytes) s

/-- READ_TICKET. -/
def execReadTicket (l : LinkId) (tag : Byte) (payload : List Byte) (s : State) : Host.Outcome State Fault Refusal :=
  .next (request l 0x34 tag everyRole (wordField? payload) readTicketBody s)

/-- UNKNOWN_KIND (R186 step 2): refused BAD_REQUEST under the kind received. -/
def execUnknownKind (l : LinkId) (kind tag : Byte) (_payload : List Byte) (s : State) :
    Host.Outcome State Fault Refusal :=
  .next (request l kind tag everyRole (none : Option Unit) (fun _ s => refuse .badRequest s) s)

end Sys2Proof.Machine
end

