-- ==== Sys2Proof/Machine/YardEvents.lean ====
section
/-! DEFINITION. Timer expiries of decks and capture units, loop and limit inputs and their timers, the barrier's timers,
the second of the clock, the end of a store write. A command for a timer that is stopped has no effect. -/

namespace Sys2Proof.Machine

/-! ### Decks and capture units -/

/-- WARM_UP_TIMER_EXPIRY (R45). -/
def execWarmUpTimerExpiry (d : DeckId) (s : State) : Host.Outcome State Fault Refusal :=
  yardEvent (fun s => (s.deck d).warmUp.isSome && (s.deck d).state == .warming) (deckChange d .active .none) s

/-- IDLE_TIMER_EXPIRY (R47). -/
def execIdleTimerExpiry (d : DeckId) (s : State) : Host.Outcome State Fault Refusal :=
  yardEvent (fun s => (s.deck d).idle.isSome && (s.deck d).state == .active) (deckChange d .sleep .none) s

/-- The stable timeout of a capture runs (R56). -/
def CaptureUnit.timing (u : CaptureUnit) : Bool :=
  match u.cap with
  | none => false
  | some c =>
    match c.timeout with
    | .notStarted => false
    | .running _ _ => true

/-- STABLE_TIMEOUT_EXPIRY (R56). -/
def execStableTimeoutExpiry (d : DeckId) (s : State) : Host.Outcome State Fault Refusal :=
  yardEvent (fun s => (s.unit d).timing) (endCapture d (.failed .unstable)) s

/-! ### Loops -/

/-- A lane with one loop replaced. -/
def State.setLoop (s : State) (n : LaneId) (i : LoopId) (p : Loop) : State := s.setLane n ((s.lane n).setLoop i p)

/-- LOOP_LEVEL_CHANGE (R73): the pin's level stands whatever the part is doing; the debounce follows it while up. -/
def execLoopLevelChange (n : LaneId) (i : LoopId) (occupied : Bool) (s : State) : Host.Outcome State Fault Refusal :=
  let p := (s.lane n).loop i
  .next (s.setLoop n i
    (if s.up then p.levelChange occupied (s.lane n).setup.loopFilter else { p with level := occupied }))

/-- R73: the debounce timer of a loop has run. -/
def loopDebounced (n : LaneId) (i : LoopId) (s : State) : State :=
  let p := (s.lane n).loop i
  match p.debounce with
  | none => s
  | some d => loopEvent n i d.target false (s.setLoop n i (p.settled d.target))

/-- LOOP_DEBOUNCE_EXPIRY (R73). -/
def execLoopDebounceExpiry (n : LaneId) (i : LoopId) (s : State) : Host.Outcome State Fault Refusal :=
  yardEvent (fun s => ((s.lane n).loop i).debounce.isSome) (loopDebounced n i) s

/-- R74: a fault asserted while the part is up: LOOP_FAULT notice, and the occupied event if the loop was clear. -/
def faultAsserted (n : LaneId) (i : LoopId) (s : State) : State :=
  let p := (s.lane n).loop i
  let s1 := (s.setLoop n i p.faultAssert).offerAll (.laneEvent n (.loopFault i))
  if p.occupied then s1 else loopEvent n i true true s1

/-- DETECTOR_FAULT_ASSERTED (R74). -/
def execDetectorFaultAsserted (n : LaneId) (i : LoopId) (s : State) : Host.Outcome State Fault Refusal :=
  let p := (s.lane n).loop i
  if s.up then yardEvent (fun _ => !p.faultIn) (faultAsserted n i) s
  else .next (s.setLoop n i { p with faultIn := true })

/-- R74: a fault cleared while the part is up. -/
def faultCleared (n : LaneId) (i : LoopId) (s : State) : State :=
  s.setLoop n i (((s.lane n).loop i).faultClear (s.lane n).setup.loopFilter)

/-- DETECTOR_FAULT_CLEARED (R74). -/
def execDetectorFaultCleared (n : LaneId) (i : LoopId) (s : State) : Host.Outcome State Fault Refusal :=
  let p := (s.lane n).loop i
  if s.up then yardEvent (fun _ => p.faultIn) (faultCleared n i) s
  else .next (s.setLoop n i { p with faultIn := false })

/-! ### Limits -/

/-- A lane with one limit replaced. -/
def State.setLimit (s : State) (n : LaneId) (i : LimitId) (p : Limit) : State := s.setLane n ((s.lane n).setLimit i p)

/-- LIMIT_INPUT_CHANGE (R76). -/
def execLimitInputChange (n : LaneId) (i : LimitId) (active : Bool) (s : State) : Host.Outcome State Fault Refusal :=
  let p := (s.lane n).limit i
  .next (s.setLimit n i (if s.up then p.levelChange active else { p with level := active }))

/-- R76: the debounce timer of a limit has run. -/
def limitDebounced (n : LaneId) (i : LimitId) (s : State) : State :=
  let p := (s.lane n).limit i
  match p.debounce with
  | none => s
  | some d =>
    let k := (s.lane n).setLimit i { p with active := d.target, debounce := none }
    applyLane n (k.limitEvent i) s

/-- LIMIT_DEBOUNCE_EXPIRY (R76, R80, R81). -/
def execLimitDebounceExpiry (n : LaneId) (i : LimitId) (s : State) : Host.Outcome State Fault Refusal :=
  yardEvent (fun s => ((s.lane n).limit i).debounce.isSome) (limitDebounced n i) s

/-! ### The barrier's timers -/

/-- TRAVEL_TIMER_EXPIRY (R81). -/
def execTravelTimerExpiry (n : LaneId) (s : State) : Host.Outcome State Fault Refusal :=
  yardEvent (fun s => (s.lane n).travel.isSome) (fun s => applyLane n (s.lane n).travelExpired s) s

/-- SETTLE_TIMER_EXPIRY (R83, R84). -/
def execSettleTimerExpiry (n : LaneId) (s : State) : Host.Outcome State Fault Refusal :=
  yardEvent (fun s => (s.lane n).settle.isSome) (fun s => applyLane n (s.lane n).settleExpired s) s

/-- RESOLUTION_TIMER_EXPIRY (R87). -/
def execResolutionTimerExpiry (n : LaneId) (s : State) : Host.Outcome State Fault Refusal :=
  yardEvent (fun s => (s.lane n).resolution.isSome && (s.lane n).barrier == .unresolved)
    (fun s => applyLane n (s.lane n).resolve s) s

/-! ### The clock and the store -/

/-- R197: the clock counts while it is set, on the main supply or on a backup supply that holds. -/
def State.clockRuns (s : State) : Bool :=
  s.clock.isSet && (s.power.main || s.power.backupValid) && decide (s.clock.time < 4294967295)

/-- R197: one second counted. -/
def advanceClock (s : State) : State := { s with clock := { s.clock with time := s.clock.time + 1, subSecond := 0 } }

/-- CLOCK_SECOND (R197, R121): during start-up and while no event is taken the advance is counted, not judged. -/
def execClockSecond (s : State) : Host.Outcome State Fault Refusal :=
  .next (if s.clockRuns then (if s.up then judgeOverstay (advanceClock s) else advanceClock s) else s)

/-- STORE_WRITE_DONE (R132). -/
def execStoreWriteDone (s : State) : Host.Outcome State Fault Refusal :=
  yardEvent (fun s => s.store.engine.isSome) completeWrite s

end Sys2Proof.Machine
end

