-- ==== Sys2Proof/Machine/Dispatch.lean ====
section
/-! DEFINITION. One arm per command: a direct call of its meaning. -/

namespace Sys2Proof.Machine

def exec (i : Instr) (s : State) : Host.Outcome State Fault Refusal :=
  match i with
  | .cellReading c raw checkOk => Sys2Proof.Machine.execCellReading c raw checkOk s
  | .periodTimerExpiry => Sys2Proof.Machine.execPeriodTimerExpiry s
  | .warmUpTimerExpiry d => Sys2Proof.Machine.execWarmUpTimerExpiry d s
  | .idleTimerExpiry d => Sys2Proof.Machine.execIdleTimerExpiry d s
  | .stableTimeoutExpiry d => Sys2Proof.Machine.execStableTimeoutExpiry d s
  | .loopLevelChange n loop occupied => Sys2Proof.Machine.execLoopLevelChange n loop occupied s
  | .loopDebounceExpiry n loop => Sys2Proof.Machine.execLoopDebounceExpiry n loop s
  | .detectorFaultAsserted n loop => Sys2Proof.Machine.execDetectorFaultAsserted n loop s
  | .detectorFaultCleared n loop => Sys2Proof.Machine.execDetectorFaultCleared n loop s
  | .limitInputChange n lim active => Sys2Proof.Machine.execLimitInputChange n lim active s
  | .limitDebounceExpiry n lim => Sys2Proof.Machine.execLimitDebounceExpiry n lim s
  | .travelTimerExpiry n => Sys2Proof.Machine.execTravelTimerExpiry n s
  | .settleTimerExpiry n => Sys2Proof.Machine.execSettleTimerExpiry n s
  | .resolutionTimerExpiry n => Sys2Proof.Machine.execResolutionTimerExpiry n s
  | .clockSecond => Sys2Proof.Machine.execClockSecond s
  | .storeWriteDone => Sys2Proof.Machine.execStoreWriteDone s
  | .admitVehicle l tag payload => Sys2Proof.Machine.execAdmitVehicle l tag payload s
  | .depart l tag payload => Sys2Proof.Machine.execDepart l tag payload s
  | .recapture l tag payload => Sys2Proof.Machine.execRecapture l tag payload s
  | .cancel l tag payload => Sys2Proof.Machine.execCancel l tag payload s
  | .reraise l tag payload => Sys2Proof.Machine.execReraise l tag payload s
  | .clearLane l tag payload => Sys2Proof.Machine.execClearLane l tag payload s
  | .voidVisit l tag payload => Sys2Proof.Machine.execVoidVisit l tag payload s
  | .reclassify l tag payload => Sys2Proof.Machine.execReclassify l tag payload s
  | .manualRaise l tag payload => Sys2Proof.Machine.execManualRaise l tag payload s
  | .lowerReset l tag payload => Sys2Proof.Machine.execLowerReset l tag payload s
  | .spotWeigh l tag payload => Sys2Proof.Machine.execSpotWeigh l tag payload s
  | .wake l tag payload => Sys2Proof.Machine.execWake l tag payload s
  | .zeroDeck l tag payload => Sys2Proof.Machine.execZeroDeck l tag payload s
  | .zeroCal l tag payload calen => Sys2Proof.Machine.execZeroCal l tag payload calen s
  | .serviceEnter l tag payload => Sys2Proof.Machine.execServiceEnter l tag payload s
  | .serviceLeave l tag payload => Sys2Proof.Machine.execServiceLeave l tag payload s
  | .tareWrite l tag payload => Sys2Proof.Machine.execTareWrite l tag payload s
  | .tareErase l tag payload => Sys2Proof.Machine.execTareErase l tag payload s
  | .tareRead l tag payload => Sys2Proof.Machine.execTareRead l tag payload s
  | .setupWrite l tag payload calen => Sys2Proof.Machine.execSetupWrite l tag payload calen s
  | .setupRead l tag payload calen => Sys2Proof.Machine.execSetupRead l tag payload calen s
  | .setYardMode l tag payload => Sys2Proof.Machine.execSetYardMode l tag payload s
  | .setClock l tag payload => Sys2Proof.Machine.execSetClock l tag payload s
  | .readClock l tag payload => Sys2Proof.Machine.execReadClock l tag payload s
  | .setTicketBase l tag payload => Sys2Proof.Machine.execSetTicketBase l tag payload s
  | .restart l tag payload => Sys2Proof.Machine.execRestart l tag payload s
  | .identify l tag payload => Sys2Proof.Machine.execIdentify l tag payload s
  | .readDeck l tag payload => Sys2Proof.Machine.execReadDeck l tag payload s
  | .readLane l tag payload => Sys2Proof.Machine.execReadLane l tag payload s
  | .readVisit l tag payload => Sys2Proof.Machine.execReadVisit l tag payload s
  | .listVisits l tag payload => Sys2Proof.Machine.execListVisits l tag payload s
  | .readTicket l tag payload => Sys2Proof.Machine.execReadTicket l tag payload s
  | .slotRead l tag payload => Sys2Proof.Machine.execSlotRead l tag payload s
  | .slotReturn l tag payload => Sys2Proof.Machine.execSlotReturn l tag payload s
  | .slotHalt l tag payload => Sys2Proof.Machine.execSlotHalt l tag payload s
  | .slotResume l tag payload => Sys2Proof.Machine.execSlotResume l tag payload s
  | .setSubscription l tag payload => Sys2Proof.Machine.execSetSubscription l tag payload s
  | .setJournalRole l tag payload => Sys2Proof.Machine.execSetJournalRole l tag payload s
  | .unknownKind l kind tag payload => Sys2Proof.Machine.execUnknownKind l kind tag payload s
  | .badFrame l why => Sys2Proof.Machine.execBadFrame l why s
  | .frameGapTimeout l => Sys2Proof.Machine.execFrameGapTimeout l s
  | .frameSent l => Sys2Proof.Machine.execFrameSent l s
  | .restartBegin straps => Sys2Proof.Machine.execRestartBegin straps s
  | .powerOn straps => Sys2Proof.Machine.execPowerOn straps s
  | .resetPinAssert => Sys2Proof.Machine.execResetPinAssert s
  | .resetPinRelease straps => Sys2Proof.Machine.execResetPinRelease straps s
  | .storeScanDone => Sys2Proof.Machine.execStoreScanDone s
  | .mainSupplyLoss => Sys2Proof.Machine.execMainSupplyLoss s
  | .backupSupplyFail => Sys2Proof.Machine.execBackupSupplyFail s
  | .frameLeadByte l => Sys2Proof.Machine.execFrameLeadByte l s

end Sys2Proof.Machine
end

