-- ==== Sys2Proof/Machine/Receive.lean ====
section
/-! DEFINITION. The frame a receiver has in hand, from its lead byte to its last, and the command it stands for: a request
named by its kind byte, or the reason for which the frame is discarded (R183, R184, R190). -/

namespace Sys2Proof.Machine

/-- R183: the payload and the two CRC bytes of what follows the tag; none unless exactly that many bytes follow. -/
def payloadAndCrc? (len : Nat) (bs : List Byte) : Option (List Byte × List Byte) :=
  if bs.length = len then some (bs.take (len - 2), bs.drop (len - 2)) else none

/-- R184, R190: the command that the bytes of a frame stand for; none for bytes that are no whole frame. A frame whose
length byte is out of range ends at that byte. -/
def received (l : LinkId) (calen : Bool) (bs : List Byte) : Option Instr :=
  match bs with
  | lead :: len :: rest =>
    if lead ≠ 0xC3 then none
    else if len.toNat < 2 then some (.badFrame l .lengthBelow2)
    else if 200 < len.toNat then some (.badFrame l .lengthAbove200)
    else
      match rest with
      | kind :: tag :: more =>
        match payloadAndCrc? len.toNat more with
        | none => none
        | some (p, crc) =>
          some (if crc = be2 (crc16 (len :: kind :: tag :: p)).toNat then commandOf l kind tag p calen
            else .badFrame l .crcMismatch)
      | _ => none
  | _ => none

end Sys2Proof.Machine
end

