-- ==== Sys2Proof/WellFormed.lean ====
section
/-! DEFINITION. Which commands can come: a frame's payload holds 0 to 198 bytes (R183), and a frame of unknown kind
bears no request code (R186, R190). Every other operand is in range by its type. -/

namespace Sys2Proof

/-- The request codes of R190. -/
def requestCodes : List Byte :=
  [0x01, 0x02, 0x03, 0x04, 0x05, 0x06, 0x07, 0x08, 0x10, 0x11] ++
  [0x18, 0x19, 0x1A, 0x1B, 0x1C, 0x1D, 0x20, 0x21, 0x22, 0x23, 0x24] ++
  [0x28, 0x29, 0x2A, 0x2B, 0x2C, 0x2D, 0x30, 0x31, 0x32, 0x33, 0x34] ++
  [0x38, 0x39, 0x3A, 0x3B, 0x3C, 0x3D]

/-- The payload a command's frame carries; none for a command that is no request. -/
def Instr.payload? : Instr → Option (List Byte)
  | .cellReading _ _ _ | .periodTimerExpiry | .warmUpTimerExpiry _ | .idleTimerExpiry _ | .stableTimeoutExpiry _
  | .loopLevelChange _ _ _ | .loopDebounceExpiry _ _ | .detectorFaultAsserted _ _ | .detectorFaultCleared _ _
  | .limitInputChange _ _ _ | .limitDebounceExpiry _ _ | .travelTimerExpiry _ | .settleTimerExpiry _
  | .resolutionTimerExpiry _ | .clockSecond | .storeWriteDone | .badFrame _ _ | .frameGapTimeout _ | .frameSent _
  | .restartBegin _ | .powerOn _ | .resetPinAssert | .resetPinRelease _ | .storeScanDone | .mainSupplyLoss
  | .backupSupplyFail | .frameLeadByte _ => none
  | .admitVehicle _ _ p | .depart _ _ p | .recapture _ _ p | .cancel _ _ p | .reraise _ _ p | .clearLane _ _ p
  | .voidVisit _ _ p | .reclassify _ _ p | .manualRaise _ _ p | .lowerReset _ _ p | .spotWeigh _ _ p | .wake _ _ p
  | .zeroDeck _ _ p | .zeroCal _ _ p _ | .serviceEnter _ _ p | .serviceLeave _ _ p | .tareWrite _ _ p
  | .tareErase _ _ p | .tareRead _ _ p | .setupWrite _ _ p _ | .setupRead _ _ p _ | .setYardMode _ _ p
  | .setClock _ _ p | .readClock _ _ p | .setTicketBase _ _ p | .restart _ _ p | .identify _ _ p | .readDeck _ _ p
  | .readLane _ _ p | .readVisit _ _ p | .listVisits _ _ p | .readTicket _ _ p | .slotRead _ _ p | .slotReturn _ _ p
  | .slotHalt _ _ p | .slotResume _ _ p | .setSubscription _ _ p | .setJournalRole _ _ p
  | .unknownKind _ _ _ p => some p

/-- The kind byte of a frame of unknown kind; none for any other command. -/
def Instr.unknownKind? : Instr → Option Byte
  | .unknownKind _ k _ _ => some k
  | _ => none

/-- A command that can come (R183, R186). -/
def Instr.wellFormed (i : Instr) : Bool :=
  (match i.payload? with
    | some p => decide (p.length ≤ 198)
    | none => true) &&
  (match i.unknownKind? with
    | some k => !(requestCodes.contains k)
    | none => true)

end Sys2Proof
end

