-- ==== Sys2Proof/Safety.lean ====
section
/-! DEFINITION. What the statements speak of: a link that takes a request, a reply that goes out, a notice that is told
or whose loss is marked (R178), and the properties every step keeps (R77, R94, R98, R124, R150, R157, R173). -/

namespace Sys2Proof.Machine

/-! ### Requests and replies -/

/-- The part is up, the link is enabled and no request of it is pending: the next frame is taken and handled (R185,
R186). -/
def State.ready (s : State) (l : LinkId) : Prop :=
  s.up = true ∧ (s.link l).role ≠ .disabled ∧ (s.link l).request = none

/-- The link's pending request has been answered: its reply is waiting or is going out (R185). -/
def State.replied (t : State) (l : LinkId) (tag code : Byte) (st : Status) (data : List Byte) : Prop :=
  (t.link l).request = some ⟨tag, code, true⟩ ∧
    (⟨tag, code, st, data⟩ ∈ (t.link l).replies ∨ (t.link l).tx = some (.reply ⟨tag, code, st, data⟩))

/-- Nothing but one link has changed. -/
def State.onlyLink (s t : State) (l : LinkId) : Prop := t = s.setLink l (t.link l)

/-- A request meets its checks in their order, and the first that fails gives the refusal: without data, and nothing but
the link changes (R186). -/
def State.refusesInOrder (s : State) (i : Instr) (l : LinkId) (tag code : Byte) (checks : List (Prop × Status)) : Prop :=
  ∀ (a b : List (Prop × Status)) (c : Prop) (st : Status), checks = a ++ (c, st) :: b → (∀ x ∈ a, x.1) → ¬c →
    ∃ t, exec i s = .next t ∧ t.replied l tag code st [] ∧ s.onlyLink t l

/-- R189: the requests, by code, that a role may make. -/
def permits (r : Role) (code : Byte) : Bool :=
  match r with
  | .office => true
  | .gate => !([0x1B, 0x1C, 0x1D, 0x20, 0x21, 0x23, 0x28, 0x29, 0x2B, 0x2C].contains code)
  | .kiosk =>
    [0x02, 0x05, 0x22, 0x24, 0x2A, 0x2D, 0x30, 0x31, 0x32, 0x33, 0x34, 0x38, 0x39, 0x3A, 0x3B, 0x3C, 0x3D].contains code
  | .disabled => false

/-! ### Notices -/

/-- The notice is queued or going out. -/
def LinkState.holds (k : LinkState) (n : Notice) : Prop := n ∈ k.queue ∨ k.tx = some (.notice n)

/-- A link that takes the notice holds it afterwards, or the loss is marked (R174, R178, R179). -/
def LinkState.told (k k' : LinkState) (n : Notice) : Prop :=
  k.takes n = true → k'.holds n ∨ k'.overrun = true ∨ k'.holds .overrun

/-- Every link is told. -/
def State.tells (s t : State) (n : Notice) : Prop := ∀ l, (s.link l).told (t.link l) n

/-! ### Ranges, outcomes and what a loss of supply keeps -/

/-- R57, R58: what a STABLE sample decides for a capture. -/
def decidedOutcome (u : DeckSetup) (owner : CapOwner) (w : CurrentWeight) (r : Weighing) : CapOutcome :=
  if w.isOver then .failed .overload
  else if w.isUnder then .failed (if owner.kind = .spot then .under else .belowMin)
  else if owner.kind ≠ .spot ∧ w.reported < 20 * u.e then .failed .belowMin
  else .done r

/-- R9. -/
def CalRecord.inRange (r : CalRecord) : Prop :=
  -8388608 ≤ r.zero ∧ r.zero ≤ 8388607 ∧ 1 ≤ r.span ∧ r.span ≤ 16777215

/-- R12. -/
def DeckSetup.inRange (u : DeckSetup) : Prop :=
  1000 ≤ u.max ∧ u.max ≤ 120000 ∧ u.e ∈ [1, 2, 5, 10, 20, 50, 100] ∧ 500 * u.e ≤ u.max ∧ u.max ≤ 10000 * u.e ∧
    u.k ≤ 5 ∧ 2 ≤ u.m ∧ u.m ≤ 64 ∧ 1 ≤ u.b ∧ u.b ≤ 4 ∧ 1 ≤ u.stableTimeout ∧ u.stableTimeout ≤ 60 ∧
    1 ≤ u.warmUp ∧ u.warmUp ≤ 60 ∧ u.idleSleep ≤ 120

/-- R70; the settle time in tenths of a second. -/
def LaneSetup.inRange (u : LaneSetup) : Prop :=
  100 ≤ u.loopFilter ∧ u.loopFilter ≤ 2000 ∧ u.loopFilter % 100 = 0 ∧ 5 ≤ u.settle ∧ u.settle ≤ 50 ∧
    u.settle % 5 = 0 ∧ 2 ≤ u.travel ∧ u.travel ≤ 15

/-- R140. -/
def YardSetup.inRange (u : YardSetup) : Prop := 1 ≤ u.p ∧ u.p ≤ 8 ∧ u.maxStay ≤ 48

/-- R121: a visit not yet flagged whose stay has expired. -/
def Visit.overstays (v : Visit) (now limit : Nat) : Prop :=
  v.flags.overstay = false ∧ limit ≠ 0 ∧ v.admitted ≤ now ∧ limit * 3600 ≤ now - v.admitted

/-- R121: the overstay judgment at a yard time: the visits whose stay has expired are flagged and told, the others and the
rest of the register are the same. -/
def State.judgedAt (s t : State) (now : Nat) : Prop :=
  t.register = { s.register with visits := t.register.visits } ∧
    t.register.visits.length = s.register.visits.length ∧
    ∀ (i : Nat) (v : Visit), s.register.visits[i]? = some v →
      (v.overstays now s.store.yardSetup.maxStay →
        t.register.visits[i]? = some { v with flags := { v.flags with overstay := true } } ∧
        ∀ l, (s.link l).told (t.link l) (.visit v.number .overstay)) ∧
      (¬v.overstays now s.store.yardSetup.maxStay → t.register.visits[i]? = some v)

/-- R200: the contents of the backup domain are the same. -/
def State.keepsBackup (s t : State) : Prop :=
  t.clock = s.clock ∧ t.register = s.register ∧ t.journal.records = s.journal.records ∧
    t.journal.counter = s.journal.counter ∧
    (∀ l, (t.jlink l).role = (s.jlink l).role ∧ (t.jlink l).cursor = (s.jlink l).cursor ∧
      (t.jlink l).slotCount = (s.jlink l).slotCount ∧ (t.link l).mask = (s.link l).mask) ∧
    ∀ d, (t.deck d).zd = (s.deck d).zd ∧ (t.deck d).service = (s.deck d).service

/-- R200, R202: every output is inactive. -/
def State.outputsOff (t : State) : Prop :=
  (∀ n, (t.lane n).raiseOut = false ∧ (t.lane n).lowerOut = false ∧ (t.lane n).goOut = false) ∧
    ∀ d, (t.deck d).excitation = false

/-- R131, R136: what a write would lay down stands at its place already. -/
def Store.standsAlready (st : Store) : StoreWrite → Prop
  | .tare i (some e) => (st.tare.get i).cell = .content e
  | .tare i none => (st.tare.get i).cell = .emptyMarker
  | .cal c r => (st.cal.get c).cell = .content r
  | .deck d r => (st.deck.get d).cell = .content r
  | .lane n r => (st.lane.get n).cell = .content r
  | .yard r => st.yard.cell = .content r

/-- R131: the write in flight, if any, has been abandoned: the store is as it was, or the place the write was to change is
torn. -/
def State.abandonsWrite (s t : State) : Prop :=
  (s.store.engine = none → t.store = s.store) ∧
    ∀ g, s.store.engine = some g →
      t.store = { s.store with engine := none } ∨
        ¬s.store.standsAlready g.write ∧ t.store = { s.store.tear g.write with engine := none }

/-- A request: its link, its request code (R190) and its tag. -/
def requestOf : Instr → Option (LinkId × Byte × Byte)
  | .admitVehicle l tag _ => some (l, 0x01, tag)
  | .depart l tag _ => some (l, 0x02, tag)
  | .recapture l tag _ => some (l, 0x03, tag)
  | .cancel l tag _ => some (l, 0x04, tag)
  | .reraise l tag _ => some (l, 0x05, tag)
  | .clearLane l tag _ => some (l, 0x06, tag)
  | .voidVisit l tag _ => some (l, 0x07, tag)
  | .reclassify l tag _ => some (l, 0x08, tag)
  | .manualRaise l tag _ => some (l, 0x10, tag)
  | .lowerReset l tag _ => some (l, 0x11, tag)
  | .spotWeigh l tag _ => some (l, 0x18, tag)
  | .wake l tag _ => some (l, 0x19, tag)
  | .zeroDeck l tag _ => some (l, 0x1A, tag)
  | .zeroCal l tag _ _ => some (l, 0x1B, tag)
  | .serviceEnter l tag _ => some (l, 0x1C, tag)
  | .serviceLeave l tag _ => some (l, 0x1D, tag)
  | .tareWrite l tag _ => some (l, 0x20, tag)
  | .tareErase l tag _ => some (l, 0x21, tag)
  | .tareRead l tag _ => some (l, 0x22, tag)
  | .setupWrite l tag _ _ => some (l, 0x23, tag)
  | .setupRead l tag _ _ => some (l, 0x24, tag)
  | .setYardMode l tag _ => some (l, 0x28, tag)
  | .setClock l tag _ => some (l, 0x29, tag)
  | .readClock l tag _ => some (l, 0x2A, tag)
  | .setTicketBase l tag _ => some (l, 0x2B, tag)
  | .restart l tag _ => some (l, 0x2C, tag)
  | .identify l tag _ => some (l, 0x2D, tag)
  | .readDeck l tag _ => some (l, 0x30, tag)
  | .readLane l tag _ => some (l, 0x31, tag)
  | .readVisit l tag _ => some (l, 0x32, tag)
  | .listVisits l tag _ => some (l, 0x33, tag)
  | .readTicket l tag _ => some (l, 0x34, tag)
  | .slotRead l tag _ => some (l, 0x38, tag)
  | .slotReturn l tag _ => some (l, 0x39, tag)
  | .slotHalt l tag _ => some (l, 0x3A, tag)
  | .slotResume l tag _ => some (l, 0x3B, tag)
  | .setSubscription l tag _ => some (l, 0x3C, tag)
  | .setJournalRole l tag _ => some (l, 0x3D, tag)
  | .unknownKind l kind tag _ => some (l, kind, tag)
  | _ => none

/-- Nothing but one link has changed, the CALEN pin's level set aside (log entry 5). -/
def State.onlyLinkAndPin (s t : State) (l : LinkId) : Prop :=
  t = { s.setLink l (t.link l) with power := { s.power with calen := t.power.calen } }

/-- What no event of the yard and no request on links, lanes, decks or visits touches: the store, the clock, supplies
and start-up, the queue of commands, the records in effect, and of every link its speed, role and
subscription mask. -/
def State.keepsFixed (s t : State) : Prop :=
  t.store = s.store ∧ t.clock = s.clock ∧ t.power = s.power ∧ t.pending = s.pending ∧ t.freeIndex = s.freeIndex ∧
    (∀ c, (t.chan c).cal = (s.chan c).cal) ∧ (∀ d, (t.deck d).setup = (s.deck d).setup) ∧
    (∀ n, (t.lane n).setup = (s.lane n).setup ∧ (t.lane n).setupBad = (s.lane n).setupBad) ∧
    ∀ l, (t.link l).speed = (s.link l).speed ∧ (t.link l).role = (s.link l).role ∧ (t.link l).mask = (s.link l).mask

/-- The link's traffic with its station, notices apart, is the same. -/
def LinkState.sameTraffic (k k' : LinkState) : Prop :=
  k'.rx = k.rx ∧ k'.request = k.request ∧ (k.tx.isSome = true ∨ k.replies = [] → k'.replies = k.replies)

/-! ### Bytes written out from the tables -/

/-- R192: a number of two bytes, high byte first. -/
def bytes2 (x : Nat) : List Byte := [BitVec.ofNat 8 (x / 256), BitVec.ofNat 8 x]

/-- R192: a number of four bytes, high byte first. -/
def bytes4 (x : Nat) : List Byte :=
  [BitVec.ofNat 8 (x / 16777216), BitVec.ofNat 8 (x / 65536), BitVec.ofNat 8 (x / 256), BitVec.ofNat 8 x]

/-- R192: a weight in kg in two's complement, 0x80000000 when absent. -/
def weightBytes : Option Int → List Byte
  | none => [0x80, 0x00, 0x00, 0x00]
  | some w => bytes4 (w % 4294967296).toNat

/-- R193: a weighing of a ticket: deck, weight, time. -/
def weighingBytes : Option TicketWeighing → List Byte
  | none => [0xFF] ++ [0x80, 0x00, 0x00, 0x00] ++ [0x00, 0x00, 0x00, 0x00]
  | some w => [BitVec.ofNat 8 w.deck.val] ++ weightBytes (some w.weight) ++ bytes4 w.time

/-- R193: the 61 bytes of a ticket record, row by row; the flags are those of R192. -/
def Ticket.record61 (t : Ticket) : List Byte :=
  bytes4 t.number ++
  [(match t.kind with | .weighed => 1 | .storedTare => 2 | .void => 3 : Byte)] ++
  bytes2 t.visit ++
  (t.plate ++ List.replicate 12 0).take 12 ++
  [BitVec.ofNat 8 t.stream] ++
  [(match t.direction with | .delivery => 1 | .collection => 2 : Byte)] ++
  [BitVec.ofNat 8 t.link.val] ++
  (bytes4 (t.account.getD 0)).drop 1 ++
  weighingBytes t.first ++
  weighingBytes t.second ++
  weightBytes (t.storedTare.map Int.ofNat) ++
  weightBytes (t.net.map Int.ofNat) ++
  bytes4 t.admitted ++
  bytes4 t.ticketed ++
  bytes2
    ((if t.reversed then 1 else 0) + (if t.flags.tareFallback then 2 else 0) +
      (if t.flags.reclassified then 4 else 0) + (if t.flags.overstay then 8 else 0) +
      (if t.flags.plateUnchecked then 16 else 0) + (if t.flags.zeroLimit then 32 else 0) +
      (if t.flags.restartSeen then 64 else 0))

/-- R199: the reply to READ_CLOCK, row by row. -/
def State.clockBytes (s : State) : List Byte :=
  [(if s.clock.isSet then 1 else 0 : Byte)] ++
  bytes4 s.clock.time ++
  bytes2 (s.clock.time / 86400) ++
  [(if s.journal.counter.isSome then 1 else 0 : Byte)] ++
  [(match s.power.lastKind with | .powerOn => 0 | .resetPin => 1 | .restart => 2 : Byte)] ++
  [(match s.power.lastCheck with | .notChecked => 0 | .valid => 1 | .cleared => 2 : Byte)]

/-- R190: a slot: its owner, and its ticket number or 0. -/
def slotHeld : Option Ticket → List Byte
  | none => [0] ++ bytes4 0
  | some t => [1] ++ bytes4 t.number

/-- R190: the slot pair status of a link: EVEN, ODD, next-fill slot, HALT, journal role and cursor. -/
def State.slotPairBytes (s : State) (l : LinkId) : List Byte :=
  slotHeld (s.jlink l).even ++
  slotHeld (s.jlink l).odd ++
  [(match (s.jlink l).next with | .even => 0 | .odd => 1 : Byte)] ++
  [(if (s.jlink l).halt then 1 else 0 : Byte)] ++
  [(match (s.jlink l).role with | .none => 0 | .follow => 1 | .hold => 2 : Byte)] ++
  ((match (s.jlink l).cursor with
    | .absent => [0] ++ bytes4 0
    | .head => [1] ++ bytes4 (s.journal.counter.getD 0)
    | .record n => [2] ++ bytes4 n) : List Byte)

/-! ### Status words, and the journal after a reset -/

/-- R91: the lane's latest status word carries its fields as they stand; ZERO_LIMIT as at the latest sample (log entries
13 and 38). -/
def State.wordShown (t : State) (n : LaneId) : Prop :=
  (t.lane n).word =
    { lane := n
      disabled := !(t.lane n).setup.enabled || (t.lane n).setupBad || (t.deck n).state == .unused
      deckState := (t.deck n).state
      stable := (t.deck n).stable && (t.deck n).current.isSome
      isOver := (t.deck n).current.any (·.isOver)
      isUnder := (t.deck n).current.any (·.isUnder)
      zeroLimit := (t.deck n).zeroLimitAtSample
      weight := (t.deck n).current.map (·.reported)
      deckOccupied := (t.lane n).deckLoop.occupied
      deckFault := (t.lane n).deckLoop.fault
      clearOccupied := (t.lane n).clearLoop.occupied
      clearFault := (t.lane n).clearLoop.fault
      barrier := (t.lane n).barrier
      cause := (t.lane n).cause.map (fun c => (c.kind.tag, c.status))
      busy := (t.unit n).cap.isSome
      bound := t.bound n
      mode := t.register.mode }

/-- R91: where every lane's word carries its fields as they stand, it does so afterwards, and a word that has changed is
told to every link. -/
def State.showsWords (s t : State) : Prop :=
  (∀ n, s.wordShown n) →
    ∀ n, t.wordShown n ∧ ((t.lane n).word ≠ (s.lane n).word → s.tells t (.laneStatus (t.lane n).word))

/-- R163: the journal role that a strapped role leaves a link. -/
def JournalLink.roleUnder (k : JournalLink) (r : Role) : JournalRole :=
  if r = .disabled then .none else if r = .kiosk ∧ k.role = .hold then .follow else k.role

/-- R153: how many retained records stand before a cursor; the head stands after them all. -/
def Cursor.place (rs : List Ticket) : Cursor → Nat
  | .record n => rs.findIdx (fun t => t.number == n)
  | .head => rs.length
  | .absent => rs.length

/-! ### What every step keeps -/

/-- R124: a CLOSING yard holds a visit. -/
def State.closingHolds (s : State) : Prop := s.register.mode = .closing → s.register.visits ≠ []

/-- R77: the outputs are those of the barrier state and the cause. -/
def Lane.shown (k : Lane) : Prop :=
  (k.raiseOut = true ↔ k.barrier = .raising) ∧ (k.lowerOut = true ↔ k.barrier = .lowering) ∧
    (k.goOut = true ↔ (k.barrier = .raising ∨ k.barrier = .up) ∧ k.pendingCause Cause.isVisit = true)

/-- R77, R83: with the CLEAR loop occupied the arm is not lowering, nothing is settled and no settle timer runs. -/
def Lane.clearGuarded (k : Lane) : Prop :=
  k.clearLoop.occupied = true → k.barrier ≠ .lowering ∧ k.settled = false ∧ k.settle = none

/-- R77 on every lane; before the come-up the barrier stands UNRESOLVED and unsettled (R87). -/
def State.barriersSafe (s : State) : Prop :=
  (∀ n, (s.lane n).shown ∧ (s.lane n).clearGuarded) ∧
    (s.power.phase = .starting → ∀ n, (s.lane n).barrier = .unresolved ∧ (s.lane n).settled = false)

/-- A LANE_STATUS notice of a lane. -/
def Notice.isWordOf (n : LaneId) : Notice → Bool
  | .laneStatus w => w.lane == n
  | .capture _ _ _ => false
  | .visit _ _ => false
  | .ticket _ _ => false
  | .journalLow _ _ => false
  | .journalGap _ _ => false
  | .storeDone _ _ => false
  | .storeLost _ _ => false
  | .yard _ => false
  | .laneEvent _ _ => false
  | .overrun => false

/-- R173: at most 24 notices, at most one LANE_STATUS for each lane. -/
def LinkState.bounded (k : LinkState) : Prop :=
  k.queue.length ≤ 24 ∧ ∀ n, k.queue.countP (Notice.isWordOf n) ≤ 1

/-- R94, R95: at most 96 visits, no two of one number or one registration; numbers and the counter 1 to 65,535. -/
def Register.distinct (r : Register) : Prop :=
  r.visits.length ≤ 96 ∧ (r.visits.map (·.number)).Nodup ∧ (r.visits.map (·.plate)).Nodup ∧
    (∀ v ∈ r.visits, 1 ≤ v.number ∧ v.number ≤ 65535) ∧ 1 ≤ r.counter ∧ r.counter ≤ 65535

/-- R98: a lane is bound only to a visit of the register that is not ON_SITE, and no visit is bound to two lanes. -/
def Register.boundOnce (r : Register) : Prop :=
  (∀ n v, r.bindings.get n = some v → ∃ x ∈ r.visits, x.number = v ∧ x.state ≠ .onSite) ∧
    ∀ n m v, r.bindings.get n = some v → r.bindings.get m = some v → n = m

/-- R148, R150: each record bears the number after the one before it, and the counter comes after the newest. -/
def numbered : List Ticket → Nat → Prop
  | [], _ => True
  | [a], c => c = nextTicket a.number
  | a :: b :: rest, c => b.number = nextTicket a.number ∧ numbered (b :: rest) c

/-- R145, R148, R150: at most 512 records, consecutively numbered up to the counter; none while it is unset. -/
def Journal.sequenced (j : Journal) : Prop :=
  j.records.length ≤ 512 ∧ (∀ t ∈ j.records, 1 ≤ t.number ∧ t.number ≤ 4294967295) ∧
    match j.counter with
    | none => j.records = []
    | some c => 1 ≤ c ∧ c ≤ 4294967295 ∧ numbered j.records c

/-- R157: the held records and the visits not RELEASED never exceed the ring. -/
def State.withinHeadroom (s : State) : Prop := s.journal.held + s.register.unreleased ≤ 512

end Sys2Proof.Machine
end

