-- ==== Sys2Proof/Certificates/Slice0/Obligations.lean ====
section
/-! DEFINITION. The statements about the model, taken from the rules of spec/. "The part is up" is State.up, "the link
is ready" is State.ready, "answered" is State.replied, "told" is LinkState.told (Safety.lean). -/

open Sys2Proof Sys2Proof.Machine

/-! ### The queue of commands -/

/-- A step takes the command at the front and runs it on the state with the queue's rest. -/
def Obligations.StepRunsFrontCommand : Prop :=
  ∀ (c : Instr) (rest : List Instr) (s : State),
    step { s with pending := c :: rest } = exec c { s with pending := rest }

/-- With nothing waiting the part idles (the model's choice, log entry 8); no command touches what waits, and none
ends in a fault or a refusal. -/
def Obligations.CommandsCompleteAndKeepQueue : Prop :=
  (∀ s : State, s.pending = [] → step s = .next s) ∧
    ∀ (c : Instr) (s : State), ∃ t, exec c s = .next t ∧ t.pending = s.pending

/-! ### Cell interface and deck arithmetic -/

/-- R1, R2, R5, R6, R7: a reading with a wrong check changes nothing; an accepted one becomes the channel's last raw
reading, sets its saturation and ends its misses and LOST, and no other channel's reading changes. Where it completes no
sample and ends no loss, it sets the arrival mark and joins the raw history of a supervised channel, and does neither
for an unsupervised one. -/
def Obligations.ReadingSetsItsChannel : Prop :=
  ∀ (s : State) (c : ChanId) (raw : BitVec 24), s.up = true →
    exec (.cellReading c raw false) s = .next s ∧
    ∃ t, exec (.cellReading c raw true) s = .next t ∧ (t.chan c).raw = some raw.toInt ∧
      (t.chan c).saturation =
        (if raw.toInt = 8388607 then .positive else if raw.toInt = -8388608 then .negative else .none) ∧
      (t.chan c).missed = 0 ∧ (t.chan c).lost = false ∧
      (∀ c', c' ≠ c → (t.chan c').raw = (s.chan c').raw ∧ (t.chan c').saturation = (s.chan c').saturation) ∧
      (s.closingHolds → (s.chan c).lost = false →
        (∀ d, (s.chan c).cal.deck = some d → (s.deck d).state.sampling = true →
          ∃ c', c' ≠ c ∧ (s.chan c').cal.deck = some d ∧ (s.chan c').arrival = false) →
        (s.supervised (s.chan c) = true →
          (t.chan c).arrival = true ∧ (t.chan c).history = newest 32 ((s.chan c).history ++ [raw.toInt])) ∧
        (s.supervised (s.chan c) = false →
          (t.chan c).arrival = (s.chan c).arrival ∧ (t.chan c).history = (s.chan c).history))

/-- R15 to R22, R24, R34: the reading that sets the last arrival mark of a deck forms a sample: the deck sum joins the
window, the average, the filtered and the indicated weight follow from it, OVER and UNDER are judged, the reported
weight is held at the limits, stability is judged on the newest M filtered weights, and the marks are cleared. -/
def Obligations.SampleRunsTheStages : Prop :=
  ∀ (s : State) (c : ChanId) (raw : BitVec 24) (d : DeckId), s.up = true → s.closingHolds →
    (s.chan c).memberOf d = true → (s.deck d).state.sampling = true →
    (∀ c', c' ≠ c → (s.chan c').memberOf d = true → (s.chan c').arrival = true) →
    let k := s.deck d
    let u := k.setup
    let members := (s.setChan c ((s.chan c).accept true raw.toInt)).members d
    let sum := (members.map (fun ch => roundDiv ((ch.raw.getD 0 - ch.cal.zero) * ch.cal.span) 65536)).sum
    let window := newest (2 ^ u.k) (k.window ++ [sum])
    let a := roundDiv window.sum window.length
    let wf := a - k.zd
    let wi := roundDiv wf (u.e * 1000) * u.e
    let isOver := decide (wi > (u.max : Int) + 9 * u.e) || members.any (fun ch => ch.saturation == .positive)
    let isUnder :=
      (decide (wi < -(20 * (u.e : Int))) || members.any (fun ch => ch.saturation == .negative)) && !isOver
    let reported := if isOver then (u.max : Int) + 9 * u.e else if isUnder then -(20 * (u.e : Int)) else wi
    let count := min (k.count + 1) 64
    let history := newest 64 (k.history ++ [wf])
    ∃ t, exec (.cellReading c raw true) s = .next t ∧ (t.deck d).window = window ∧ (t.deck d).count = count ∧
      (t.deck d).current = some ⟨a, wf, reported, isOver, isUnder⟩ ∧
      ((t.deck d).stable = true ↔ u.m ≤ count ∧ spread (newest u.m history) ≤ u.b * u.e * 1000) ∧
      ∀ c', (t.chan c').memberOf d = true → (t.chan c').arrival = false

/-- R37, R38, R34: what a sample does to the zero. On a deck that is EMPTY and judged STABLE the armed power-up zero acts
once within plus and minus Max times 20; else a tracking step is made within the band of e times 500, clamped at the
limit; in every other case Zd, ZERO_LIMIT and the power-up zero stay. The history moves with Zd. -/
def Obligations.SampleMovesTheZero : Prop :=
  ∀ (s : State) (c : ChanId) (raw : BitVec 24) (d : DeckId), s.up = true → s.closingHolds →
    (s.chan c).memberOf d = true → (s.deck d).state.sampling = true →
    (∀ c', c' ≠ c → (s.chan c').memberOf d = true → (s.chan c').arrival = true) →
    let k := s.deck d
    let members := (s.setChan c ((s.chan c).accept true raw.toInt)).members d
    let window := newest (2 ^ k.setup.k) (k.window ++ [deckSum members])
    let a := roundDiv window.sum window.length
    let limit : Int := k.setup.max * 20
    ∃ t, exec (.cellReading c raw true) s = .next t ∧
      (t.deck d).history =
        (newest 64 (k.history ++ [a - k.zd])).map (fun w => w - ((t.deck d).zd - k.zd)) ∧
      (¬(s.isEmpty d = true ∧ (t.deck d).stable = true) →
        (t.deck d).zd = k.zd ∧ (t.deck d).zeroLimit = k.zeroLimit ∧ (t.deck d).powerUpZero = k.powerUpZero) ∧
      (s.isEmpty d = true → (t.deck d).stable = true → k.powerUpZero = true →
        (t.deck d).powerUpZero = false ∧
        (-limit ≤ a ∧ a ≤ limit → (t.deck d).zd = a ∧ (t.deck d).zeroLimit = false) ∧
        (¬(-limit ≤ a ∧ a ≤ limit) → (t.deck d).zd = k.zd ∧ (t.deck d).zeroLimit = true)) ∧
      (s.isEmpty d = true → (t.deck d).stable = true → k.powerUpZero = false →
        (t.deck d).powerUpZero = false ∧
        (((a - k.zd).natAbs ≤ k.setup.e * 500 →
          (a > limit → (t.deck d).zd = limit ∧ (t.deck d).zeroLimit = true) ∧
          (a < -limit → (t.deck d).zd = -limit ∧ (t.deck d).zeroLimit = true) ∧
          (-limit ≤ a ∧ a ≤ limit → (t.deck d).zd = a ∧ (t.deck d).zeroLimit = false)) ∧
        (k.setup.e * 500 < (a - k.zd).natAbs → (t.deck d).zd = k.zd ∧ (t.deck d).zeroLimit = k.zeroLimit)))

/-- The rounding of stages 1, 3 and 4 (00_scope.md 5, R20): to the nearest multiple, a half away from zero. -/
def Obligations.RoundingGoesHalfAwayFromZero : Prop :=
  ∀ (a : Int) (b : Nat), 0 < b →
    2 * (a - roundDiv a b * b).natAbs ≤ b ∧
    (2 * (a - roundDiv a b * b).natAbs = b → a.natAbs < (roundDiv a b * b).natAbs) ∧
    roundDiv (-a) b = -roundDiv a b

/-- R3, R4, R33: at each expiry a supervised channel without a reading in the period gains a miss, is LOST at the third
and faults its deck; every other count stays; the next period starts. -/
def Obligations.PeriodJudgesMissedReadings : Prop :=
  ∀ s : State, s.up = true → s.period.isSome = true → s.closingHolds →
    ∃ t, exec .periodTimerExpiry s = .next t ∧ t.period = some (1250 * 2 ^ s.store.yardSetup.p) ∧
      (∀ c, (t.chan c).answered = false ∧ (t.chan c).raw = (s.chan c).raw ∧
        (s.supervised (s.chan c) = true → (s.chan c).answered = false →
          (t.chan c).missed = min ((s.chan c).missed + 1) 3 ∧
          ((t.chan c).lost = true ↔ (s.chan c).lost = true ∨ 3 ≤ (s.chan c).missed + 1)) ∧
        (s.supervised (s.chan c) = false ∨ (s.chan c).answered = true →
          (t.chan c).missed = (s.chan c).missed ∧ (t.chan c).lost = (s.chan c).lost)) ∧
      ∀ c d, (s.chan c).memberOf d = true → (s.deck d).state.sampling = true → (s.chan c).answered = false →
        (s.chan c).lost = false → 3 ≤ (s.chan c).missed + 1 →
        (t.deck d).state = .fault ∧ (t.deck d).current = none ∧ (t.unit d).cap = none

/-- R33, R23: the reading that ends the last loss of a deck in FAULT takes it to SERVICE if its mark is set and to ACTIVE
otherwise, with the window and every arrival mark emptied. -/
def Obligations.LastReturnEndsFault : Prop :=
  ∀ (s : State) (c : ChanId) (raw : BitVec 24) (d : DeckId), s.up = true → s.closingHolds →
    (s.chan c).memberOf d = true → (s.deck d).state = .fault → (s.chan c).lost = true →
    (∀ c', c' ≠ c → (s.chan c').memberOf d = true → (s.chan c').lost = false) →
    ∃ t, exec (.cellReading c raw true) s = .next t ∧
      (t.deck d).state = (if (s.deck d).service then .service else .active) ∧ (t.deck d).powerUpZero = false ∧
      (t.deck d).window = [] ∧ (t.deck d).count = 0 ∧ (t.deck d).history = [] ∧ (t.deck d).current = none ∧
      ∀ c', (t.chan c').memberOf d = true → (t.chan c').arrival = false

/-! ### Captures -/

/-- R57, R58, R64, R66, R67: a STABLE sample of an ACTIVE deck decides the waiting capture; a MOTION sample leaves it
waiting. The links are told, a SPOT's own link alone, and a SPOT outcome is kept. -/
def Obligations.StableSampleDecidesCapture : Prop :=
  ∀ (s : State) (c : ChanId) (raw : BitVec 24) (d : DeckId) (p : Capture) (w : CurrentWeight),
    s.up = true → s.closingHolds → (s.chan c).memberOf d = true → (s.deck d).state = .active →
    (∀ c', c' ≠ c → (s.chan c').memberOf d = true → (s.chan c').arrival = true) → (s.unit d).cap = some p →
    ((s.deck d).sample ((s.setChan c ((s.chan c).accept true raw.toInt)).members d)).current = some w →
    let o := decidedOutcome (s.deck d).setup p.owner w
      ⟨d, p.owner.kind, w.reported, s.clock.time, (s.deck d).zeroLimit⟩
    ∃ t, exec (.cellReading c raw true) s = .next t ∧
      ((t.deck d).stable = false → (t.unit d) = s.unit d) ∧
      ((t.deck d).stable = true → (t.unit d).cap = none ∧
        (∀ l, p.owner = .spot l →
          (t.unit d).lastSpot = some ⟨l, p.start, o⟩ ∧ (s.link l).told (t.link l) (.capture d p.owner o)) ∧
        (p.owner.kind ≠ .spot →
          (t.unit d).lastSpot = (s.unit d).lastSpot ∧ s.tells t (.capture d p.owner o)))

/-- R104: an entry weighing that completes becomes the first weighing; the visit is ENTERING and still bound; the lane is
asked to raise if its DECK loop reads occupied. -/
def Obligations.EntryWeighingAdmits : Prop :=
  ∀ (s : State) (c : ChanId) (raw : BitVec 24) (d : DeckId) (v : Visit) (p : Capture) (w : CurrentWeight),
    s.up = true → (s.chan c).memberOf d = true → (s.deck d).state = .active →
    (∀ c', c' ≠ c → (s.chan c').memberOf d = true → (s.chan c').arrival = true) →
    (s.unit d).cap = some p → p.owner = .visitIn v.number → s.register.find v.number = some v → v.state = .weighIn →
    s.bound d = some v.number →
    let k := (s.deck d).sample ((s.setChan c ((s.chan c).accept true raw.toInt)).members d)
    k.current = some w → k.stable = true → w.isOver = false → w.isUnder = false → 20 * k.setup.e ≤ w.reported →
    let r : Weighing := ⟨d, .visitIn, w.reported, s.clock.time, (s.deck d).zeroLimit⟩
    ∃ t, exec (.cellReading c raw true) s = .next t ∧
      t.register.find v.number = some { v with
        first := some r, state := .entering, failure := none, capMark := false
        flags := { v.flags with zeroLimit := v.flags.zeroLimit || r.zeroLimit } } ∧
      t.bound d = some v.number ∧ t.journal.records = s.journal.records ∧
      ((s.lane d).deckLoop.occupied = true →
        (t.lane d).cause = some ⟨.admitted v.number, .pending⟩ ∧ (t.lane d).count = 0) ∧
      ((s.lane d).deckLoop.occupied = false →
        (t.lane d).cause = (s.lane d).cause ∧ (t.lane d).barrier = (s.lane d).barrier)

/-- R113, R114, R150, R99, R100: an exit weighing that completes releases the visit: one record with the counter's number
and the net of the plan, the visit RELEASED with that number, the raise asked. The plans with an exit weighing: WEIGHED, by
direction the difference of its two weighings; STORED / COLLECTION, the second weighing less the stored tare, with no first
weighing and the kind STORED_TARE. -/
def Obligations.ExitWeighingWritesTicket : Prop :=
  ∀ (s : State) (c : ChanId) (raw : BitVec 24) (d : DeckId) (v : Visit) (p : Capture) (w : CurrentWeight)
    (num : Nat) (kind : TicketKind) (diff : Int),
    s.up = true → (s.chan c).memberOf d = true → (s.deck d).state = .active →
    (∀ c', c' ≠ c → (s.chan c').memberOf d = true → (s.chan c').arrival = true) →
    (s.unit d).cap = some p → p.owner = .visitOut v.number → s.register.find v.number = some v → v.state = .weighOut →
    s.bound d = some v.number → s.journal.counter = some num →
    (v.tareMode = .weighed ∧ kind = .weighed ∧ (∃ f, v.first = some f ∧
        diff = (if v.direction = .delivery then f.weight - w.reported else w.reported - f.weight)) ∨
      v.tareMode = .stored ∧ v.direction = .collection ∧ v.first = none ∧ kind = .storedTare ∧
        ∃ tare : Nat, v.storedTare = some tare ∧ diff = w.reported - tare) →
    let k := (s.deck d).sample ((s.setChan c ((s.chan c).accept true raw.toInt)).members d)
    k.current = some w → k.stable = true → w.isOver = false → w.isUnder = false → 20 * k.setup.e ≤ w.reported →
    let flags : VisitFlags := { v.flags with zeroLimit := v.flags.zeroLimit || (s.deck d).zeroLimit }
    ∃ t, exec (.cellReading c raw true) s = .next t ∧
      t.journal.records =
        (if s.journal.records.length < 512 then s.journal.records else s.journal.records.drop 1) ++
        [{ number := num, kind := kind, visit := v.number, plate := v.plate, stream := v.stream
           direction := v.direction, link := v.link, account := v.account
           first := v.first.map (fun f => ⟨f.deck, f.weight, f.time⟩), second := some ⟨d, w.reported, s.clock.time⟩
           storedTare := v.storedTare, net := some (if diff < 0 then 0 else diff.toNat), admitted := v.admitted
           ticketed := s.clock.time, flags := flags, reversed := decide (diff < 0) }] ∧
      t.journal.counter = some (if num = 4294967295 then 1 else num + 1) ∧
      t.register.find v.number = some { v with
        second := some ⟨d, .visitOut, w.reported, s.clock.time, (s.deck d).zeroLimit⟩, state := .released
        ticket := some num, failure := none, capMark := false, flags := flags } ∧
      t.bound d = some v.number ∧
      ((s.lane d).deckLoop.occupied = true →
        (t.lane d).cause = some ⟨.released v.number, .pending⟩ ∧ (t.lane d).count = 0)

/-! ### Deck timers, wakes and requests -/

/-- R45, R47, R29, R60, R56, R66, R67: the warm-up timer ends in ACTIVE with the power-up zero armed and the window kept,
and a waiting capture's stable timeout starts; the idle timer takes an ACTIVE deck to SLEEP, its members unsupervised,
Zd, ZERO_LIMIT and the service mark kept; the stable timeout's end fails the waiting capture UNSTABLE, told and, for a
SPOT, kept. R105, R115: a WEIGH_IN visit stays bound with the failure cause and without its mark; a WEIGH_OUT visit returns
to ON_SITE, unbound and without an exit lane; no record is written. -/
def Obligations.DeckTimersChangeState : Prop :=
  (∀ (s : State) (d : DeckId), s.up = true → s.closingHolds → (s.deck d).warmUp.isSome = true →
    (s.deck d).state = .warming →
    ∃ t, exec (.warmUpTimerExpiry d) s = .next t ∧ (t.deck d).state = .active ∧ (t.deck d).excitation = true ∧
      (t.deck d).powerUpZero = true ∧ (t.deck d).warmUp = none ∧ (t.deck d).wakeCause = .none ∧
      (t.deck d).window = (s.deck d).window ∧ (t.deck d).zd = (s.deck d).zd ∧
      ∀ c, (s.unit d).cap = some c → c.timeout = .notStarted →
        (t.unit d).cap = some { c with timeout := .running s.clock.time ((s.deck d).setup.stableTimeout * 1000) }) ∧
  (∀ (s : State) (d : DeckId), s.up = true → (s.deck d).idle.isSome = true → (s.deck d).state = .active →
    ∃ t, exec (.idleTimerExpiry d) s = .next t ∧ (t.deck d).state = .sleep ∧ (t.deck d).excitation = false ∧
      (t.deck d).current = none ∧ (t.deck d).idle = none ∧ (t.deck d).warmUp = none ∧
      (t.deck d).powerUpZero = false ∧ (t.deck d).zd = (s.deck d).zd ∧
      (t.deck d).zeroLimit = (s.deck d).zeroLimit ∧ (t.deck d).service = (s.deck d).service ∧
      ∀ c, (t.chan c).memberOf d = true → (t.chan c).arrival = false ∧ (t.chan c).missed = 0 ∧
        (t.chan c).lost = false ∧ (t.chan c).history = []) ∧
  ∀ (s : State) (d : DeckId) (c : Capture) (since ms : Nat), s.up = true → (s.unit d).cap = some c →
    c.timeout = .running since ms →
    ∃ t, exec (.stableTimeoutExpiry d) s = .next t ∧ (t.unit d).cap = none ∧
      (c.owner.kind ≠ .spot → s.tells t (.capture d c.owner (.failed .unstable)) ∧
        (t.unit d).lastSpot = (s.unit d).lastSpot) ∧
      (∀ l, c.owner = .spot l → (t.unit d).lastSpot = some ⟨l, c.start, .failed .unstable⟩ ∧
        (s.link l).told (t.link l) (.capture d c.owner (.failed .unstable))) ∧
      t.journal.records = s.journal.records ∧
      (∀ v, c.owner = .visitIn v.number → s.register.find v.number = some v → v.state = .weighIn →
        s.bound d = some v.number →
        t.register.find v.number = some { v with failure := some .unstable, capMark := false } ∧
        t.bound d = some v.number) ∧
      ∀ v, c.owner = .visitOut v.number → s.register.find v.number = some v → v.state = .weighOut →
        s.bound d = some v.number →
        t.register.find v.number =
          some { v with state := .onSite, exitLane := none, failure := some .unstable, capMark := false } ∧
        ∀ n, t.bound n ≠ some v.number

/-- R44: WAKE by the deck's state; in WARMING the cause becomes REQUEST; FAULT and UNUSED refuse it. -/
def Obligations.WakeActsByDeckState : Prop :=
  ∀ (s : State) (l : LinkId) (tag : Byte) (d : DeckId), s.ready l → gateOffice (s.link l).role = true →
    s.closingHolds →
    ∃ t, exec (.wake l tag (be1 d.val)) s = .next t ∧
      ((s.deck d).state = .sleep → t.replied l tag 0x19 .ok [] ∧ (t.deck d).state = .warming ∧
        (t.deck d).wakeCause = .request ∧ (t.deck d).warmUp = some ((s.deck d).setup.warmUp * 1000) ∧
        (t.deck d).window = []) ∧
      ((s.deck d).state = .warming → t.replied l tag 0x19 .ok [] ∧ (t.deck d).state = .warming ∧
        (t.deck d).wakeCause = .request ∧ (t.deck d).warmUp = (s.deck d).warmUp) ∧
      ((s.deck d).state = .active → t.replied l tag 0x19 .ok [] ∧ (t.deck d).state = .active ∧
        ((s.deck d).empty = s.isEmpty d → (t.deck d).idle =
          (if (s.deck d).idle.isSome = true ∧ (s.deck d).setup.idleSleep ≠ 0 then
            some ((s.deck d).setup.idleSleep * 60000) else none))) ∧
      ((s.deck d).state = .service → t.replied l tag 0x19 .ok [] ∧ t.deck d = s.deck d) ∧
      ((s.deck d).state = .fault ∨ (s.deck d).state = .unused →
        t.replied l tag 0x19 .deckNotReady [] ∧ s.onlyLink t l)

/-- R39: a ZERO that passes its checks sets Zd to the latest average, clears ZERO_LIMIT and moves the history; nothing else
of the part changes but the link. -/
def Obligations.ZeroTakesTheAverage : Prop :=
  ∀ (s : State) (l : LinkId) (tag : Byte) (d : DeckId) (w : CurrentWeight), s.ready l →
    gateOffice (s.link l).role = true → ((s.deck d).state = .active ∨ (s.deck d).state = .service) →
    (s.deck d).zeroCal = [] → (s.unit d).cap = none → (s.lane d).deckLoop.occupied = false →
    (s.deck d).current = some w → (s.deck d).stable = true → (w.a.natAbs : Int) ≤ (s.deck d).setup.max * 20 →
    ∃ t, exec (.zeroDeck l tag (be1 d.val)) s = .next t ∧ t.replied l tag 0x1A .ok [] ∧
      t = (s.setDeck d { s.deck d with
        zd := w.a, zeroLimit := false
        history := (s.deck d).history.map (fun x => x - (w.a - (s.deck d).zd)) }).setLink l (t.link l)

/-- R40, R41, R132: an accepted ZERO_CAL keeps each member's new Z, the rounded mean of its newest 2^k readings, and starts
the write of the first. -/
def Obligations.ZeroCalKeepsMeansAndStarts : Prop :=
  ∀ (s : State) (l : LinkId) (tag : Byte) (d : DeckId) (c : ChanId) (rest : List ChanId), s.ready l →
    (s.link l).role = .office → (s.deck d).service = true → (s.deck d).state = .service → s.store.engine = none →
    (s.deck d).stable = true → (s.deck d).current.isSome = true →
    (∀ c, (s.chan c).memberOf d = true → 2 ^ (s.deck d).setup.k ≤ (s.chan c).history.length) →
    s.memberIds d = c :: rest →
    let z := fun c => roundDiv (newest (2 ^ (s.deck d).setup.k) (s.chan c).history).sum (2 ^ (s.deck d).setup.k)
    ∃ t, exec (.zeroCal l tag (be1 d.val) true) s = .next t ∧ t.replied l tag 0x1B .accepted [] ∧
      (t.deck d).zeroCal = (c :: rest).map (fun c => (c, z c)) ∧ (t.deck d).zd = (s.deck d).zd ∧
      t.store = { s.store with engine := some ⟨.cal c { (s.chan c).cal with zero := z c }, some d, 8⟩ } ∧
      t.channels = s.channels

/-- R31, R86, R60: SERVICE_ENTER sets the mark; a deck in SLEEP, WARMING or ACTIVE enters SERVICE with its waiting capture
ended; a PENDING VISIT cause of its lane is withdrawn. -/
def Obligations.ServiceEnterTakesDeck : Prop :=
  ∀ (s : State) (l : LinkId) (tag : Byte) (d : DeckId), s.ready l → (s.link l).role = .office →
    (s.deck d).service = false →
    ∃ t, exec (.serviceEnter l tag (be1 d.val)) s = .next t ∧ t.replied l tag 0x1C .ok [] ∧
      (t.deck d).service = true ∧ (t.deck d).zd = (s.deck d).zd ∧
      ((s.deck d).state.capturable = true → (t.deck d).state = .service ∧ (t.deck d).excitation = true ∧
        (t.unit d).cap = none) ∧
      ((s.deck d).state = .fault ∨ (s.deck d).state = .unused → (t.deck d).state = (s.deck d).state) ∧
      (∀ x, (s.lane d).cause = some x → x.isPending = true → x.isVisit = true →
        (t.lane d).cause = some { x with status := .withdrawn })

/-- R32: SERVICE_LEAVE is refused WRONG_STATE with the mark clear or a ZERO_CAL in progress, and nothing but the link
changes; otherwise it clears the mark: a deck in SERVICE enters ACTIVE whatever the yard mode, with its window, history
and weight kept, no warm-up and the power-up zero not armed; a deck in FAULT or UNUSED keeps its state. -/
def Obligations.ServiceLeaveReturnsDeck : Prop :=
  ∀ (s : State) (l : LinkId) (tag : Byte) (d : DeckId), s.ready l → (s.link l).role = .office → s.closingHolds →
    ∃ t, exec (.serviceLeave l tag (be1 d.val)) s = .next t ∧
      ((s.deck d).service = false ∨ (s.deck d).zeroCal ≠ [] →
        t.replied l tag 0x1D .wrongState [] ∧ s.onlyLink t l) ∧
      ((s.deck d).service = true → (s.deck d).zeroCal = [] →
        t.replied l tag 0x1D .ok [] ∧ (t.deck d).service = false ∧
        ((s.deck d).state = .service → (t.deck d).state = .active ∧ (t.deck d).powerUpZero = false ∧
          (t.deck d).warmUp = none ∧ (t.deck d).window = (s.deck d).window ∧
          (t.deck d).history = (s.deck d).history ∧ (t.deck d).current = (s.deck d).current ∧
          (t.deck d).stable = (s.deck d).stable) ∧
        ((s.deck d).state = .fault ∨ (s.deck d).state = .unused → (t.deck d).state = (s.deck d).state))

/-- R54, R55: an accepted SPOT_WEIGH starts a SPOT capture of its link; its timeout runs at once on an ACTIVE deck, and a
sleeping deck begins to warm with cause REQUEST. -/
def Obligations.SpotWeighStartsCapture : Prop :=
  ∀ (s : State) (l : LinkId) (tag : Byte) (d : DeckId), s.ready l → gateOffice (s.link l).role = true →
    s.closingHolds → (s.deck d).state.capturable = true → (s.unit d).cap = none →
    ∃ t, exec (.spotWeigh l tag (be1 d.val)) s = .next t ∧ t.replied l tag 0x18 .accepted [] ∧
      (t.unit d).cap = some ⟨.spot l, s.clock.time,
        if (s.deck d).state = .active then .running s.clock.time ((s.deck d).setup.stableTimeout * 1000)
        else .notStarted⟩ ∧
      (t.unit d).lastSpot = (s.unit d).lastSpot ∧
      (t.deck d).state = (if (s.deck d).state = .active then .active else .warming) ∧
      ((s.deck d).state ≠ .active → (t.deck d).wakeCause = .request) ∧
      ((s.deck d).state = .active → (s.deck d).empty = true → (t.deck d).idle = none)

/-! ### Loops, limits and the barrier -/

/-- R73: a level that differs from the debounced state starts the timer, or leaves a running one; a level that returns
stops it; the state itself does not change. -/
def Obligations.LoopLevelRunsDebounce : Prop :=
  ∀ (s : State) (n : LaneId) (i : LoopId) (level : Bool), s.up = true → ((s.lane n).loop i).faultIn = false →
    let p := (s.lane n).loop i
    ∃ t, exec (.loopLevelChange n i level) s = .next t ∧
      ((t.lane n).loop i).level = level ∧ ((t.lane n).loop i).occupied = p.occupied ∧
      (level = p.occupied → ((t.lane n).loop i).debounce = none) ∧
      (level ≠ p.occupied → p.debounce = none →
        ((t.lane n).loop i).debounce = some ⟨level, (s.lane n).setup.loopFilter⟩) ∧
      (level ≠ p.occupied → p.debounce.isSome = true → ((t.lane n).loop i).debounce = p.debounce) ∧
      t = s.setLane n ((s.lane n).setLoop i ((t.lane n).loop i))

/-- R73, R43, R46, R59: the debounce's end is the loop event: the state takes the level, an enabled edge wakes a sleeping
deck with cause EDGE, the waking loop's return ends a false wake, a DECK cleared event ends a VISIT capture. R105, R115: the
WEIGH_IN visit of that capture leaves the register, told cancelled; a WEIGH_OUT visit returns to ON_SITE, unbound and without
an exit lane, with the failure cause. R86, R84: a DECK cleared event with the passage mark clear withdraws a PENDING VISIT
cause, and a raised, settled arm then lowers; with the mark set, or under any other cause, the cause and the arm stay. -/
def Obligations.LoopEventReachesDeckAndCapture : Prop :=
  ∀ (s : State) (n : LaneId) (i : LoopId) (x : Debounce), s.up = true → ((s.lane n).loop i).debounce = some x →
    s.register.mode ≠ .closing →
    ∃ t, exec (.loopDebounceExpiry n i) s = .next t ∧
      ((t.lane n).loop i).occupied = x.target ∧ ((t.lane n).loop i).debounce = none ∧
      ((s.deck n).state = .sleep → (s.deck n).wakeMask.enables i x.target = true →
        (t.deck n).state = .warming ∧ (t.deck n).wakeCause = .edge i (!x.target) ∧
        (t.deck n).warmUp = some ((s.deck n).setup.warmUp * 1000)) ∧
      ((s.deck n).state = .sleep → (s.deck n).wakeMask.enables i x.target = false → (t.deck n).state = .sleep) ∧
      ((s.deck n).state = .warming → (s.deck n).wakeCause = .edge i x.target → (t.deck n).state = .sleep) ∧
      ((s.deck n).state = .warming → (s.deck n).wakeCause ≠ .edge i x.target →
        (t.deck n).state = .warming ∧ (t.deck n).wakeCause = (s.deck n).wakeCause) ∧
      ((s.deck n).state = .active → (t.deck n).state = .active) ∧
      (∀ c, (s.unit n).cap = some c → c.owner.kind ≠ .spot → i = .deck → x.target = false →
        (s.deck n).wakeCause = .request ∨ (s.deck n).state = .active →
        (t.unit n).cap = none ∧ s.tells t (.capture n c.owner (.failed .vehicleLeft)) ∧
        t.journal.records = s.journal.records ∧
        (∀ v, c.owner = .visitIn v.number → s.register.find v.number = some v → v.state = .weighIn →
          s.bound n = some v.number →
          t.register.visits = s.register.visits.filter (fun y => y.number != v.number) ∧
          (∀ m, t.bound m ≠ some v.number) ∧ s.tells t (.visit v.number .cancelled)) ∧
        (∀ v, c.owner = .visitOut v.number → s.register.find v.number = some v → v.state = .weighOut →
          s.bound n = some v.number →
          t.register.find v.number =
            some { v with state := .onSite, exitLane := none, failure := some .vehicleLeft, capMark := false } ∧
          ∀ m, t.bound m ≠ some v.number)) ∧
      (i = .deck → x.target = false → (s.lane n).mark = false → (s.lane n).pendingCause Cause.isVisit = true →
        (t.lane n).cause = (s.lane n).cause.map (fun c => { c with status := .withdrawn }) ∧
        (t.lane n).barrier =
          (if (s.lane n).barrier = .up ∧ (s.lane n).settled = true then
            (if (s.lane n).bothLimits then .jammed else if (s.lane n).down.active then .down else .lowering)
           else (s.lane n).barrier)) ∧
      (i = .deck → x.target = true ∨ (s.lane n).mark = true ∨ (s.lane n).pendingCause Cause.isVisit = false →
        (t.lane n).cause = (s.lane n).cause ∧ (t.lane n).barrier = (s.lane n).barrier)

/-- R85, R82, R83: a CLEAR occupied event stops the settle timer and unsettles the lane; while LOWERING it reverses the arm
with cause SAFETY and the passage mark set, the count kept. -/
def Obligations.ClearOccupiedReversesArm : Prop :=
  ∀ (s : State) (n : LaneId) (x : Debounce), s.up = true → (s.lane n).clearLoop.debounce = some x →
    x.target = true →
    ∃ t, exec (.loopDebounceExpiry n .clear) s = .next t ∧ (t.lane n).clearLoop.occupied = true ∧
      (t.lane n).settle = none ∧ (t.lane n).settled = false ∧ (t.lane n).lowerOut = false ∧
      ((s.lane n).barrier = .lowering → (t.lane n).mark = true ∧
        (t.lane n).cause = some ⟨.safety, .pending⟩ ∧ (t.lane n).count = (s.lane n).count ∧
        ((s.lane n).bothLimits = false → (s.lane n).up.active = false → (t.lane n).barrier = .raising ∧
          (t.lane n).raiseOut = true ∧ (t.lane n).travel = some ((s.lane n).setup.travel * 1000)) ∧
        ((s.lane n).bothLimits = false → (s.lane n).up.active = true → (t.lane n).barrier = .up) ∧
        ((s.lane n).bothLimits = true → (t.lane n).barrier = .jammed ∧ (t.lane n).jam = .bothLimits)) ∧
      ((s.lane n).barrier = .raising ∨ (s.lane n).barrier = .up →
        (t.lane n).mark = true ∧ (t.lane n).cause = (s.lane n).cause ∧ (t.lane n).barrier = (s.lane n).barrier) ∧
      ((s.lane n).barrier = .down ∨ (s.lane n).barrier = .jammed ∨ (s.lane n).barrier = .unresolved →
        (t.lane n).mark = (s.lane n).mark ∧ (t.lane n).barrier = (s.lane n).barrier)

/-- R82, R83, R107, R116: a CLEAR cleared event in RAISING or UP with the mark set is a passage: TAILGATE when the count is
1 or more or the cause WITHDRAWN, a PENDING cause CONSUMED, the count one more, and the passage credited to the visit of
a PENDING VISIT cause, which enters ON_SITE or leaves the register. R82, R83, R86: any other CLEAR cleared event is no
passage: it clears the mark, starts the settle timer and withdraws a PENDING SAFETY cause, every other cause, the count and
the arm kept. -/
def Obligations.PassageCreditsItsVisit : Prop :=
  (∀ (s : State) (n : LaneId) (x : Debounce), s.up = true → (s.lane n).clearLoop.debounce = some x →
    x.target = false → ¬((s.lane n).mark = true ∧ ((s.lane n).barrier = .raising ∨ (s.lane n).barrier = .up)) →
    ∃ t, exec (.loopDebounceExpiry n .clear) s = .next t ∧ (t.lane n).clearLoop.occupied = false ∧
      (t.lane n).mark = false ∧ (t.lane n).settled = false ∧
      (t.lane n).settle = some ((s.lane n).setup.settle * 100) ∧ (t.lane n).barrier = (s.lane n).barrier ∧
      (t.lane n).count = (s.lane n).count ∧
      (t.lane n).cause = (s.lane n).cause.map
        (fun c => if c.status = .pending ∧ c.kind = .safety then { c with status := .withdrawn } else c) ∧
      t.register.visits.map (·.number) = s.register.visits.map (·.number) ∧
      t.journal.records = s.journal.records) ∧
  ∀ (s : State) (n : LaneId) (x : Debounce), s.up = true → (s.lane n).clearLoop.debounce = some x →
    x.target = false → (s.lane n).mark = true → ((s.lane n).barrier = .raising ∨ (s.lane n).barrier = .up) →
    ∃ t, exec (.loopDebounceExpiry n .clear) s = .next t ∧ (t.lane n).clearLoop.occupied = false ∧
      (t.lane n).mark = false ∧ (t.lane n).settled = false ∧
      (t.lane n).settle = some ((s.lane n).setup.settle * 100) ∧ (t.lane n).barrier = (s.lane n).barrier ∧
      (t.lane n).count = min ((s.lane n).count + 1) 255 ∧
      (t.lane n).cause = (s.lane n).cause.map (fun c => if c.status = .pending then { c with status := .consumed } else c) ∧
      (1 ≤ (s.lane n).count ∨ (∃ c, (s.lane n).cause = some c ∧ c.status = .withdrawn) →
        s.tells t (.laneEvent n .tailgate)) ∧
      (∀ v, (s.lane n).cause = some ⟨.admitted v.number, .pending⟩ → s.register.find v.number = some v →
        v.state = .entering → s.bound n = some v.number →
        t.register.find v.number = some { v with state := .onSite } ∧ t.bound n = none ∧
        s.tells t (.visit v.number .entered)) ∧
      (∀ v, (s.lane n).cause = some ⟨.released v.number, .pending⟩ → s.register.find v.number = some v →
        v.state = .released → s.bound n = some v.number →
        t.register.find v.number = none ∧ t.bound n = none ∧ s.tells t (.visit v.number .departed) ∧
        t.journal.records = s.journal.records)

/-- R74, R75: a detector fault makes its loop read occupied at once and stops its debounce, with a LOOP_FAULT notice; when
the input is deasserted the flag is cleared and the debounce resumes from occupied. -/
def Obligations.DetectorFaultReadsOccupied : Prop :=
  ∀ (s : State) (n : LaneId) (i : LoopId), s.up = true →
    (((s.lane n).loop i).faultIn = false →
      ∃ t, exec (.detectorFaultAsserted n i) s = .next t ∧
        (t.lane n).loop i = ⟨((s.lane n).loop i).level, true, true, true, none⟩ ∧
        s.tells t (.laneEvent n (.loopFault i)) ∧
        (i = .clear → ((s.lane n).loop i).occupied = false → (t.lane n).settled = false ∧
          (t.lane n).mark = (s.lane n).mark)) ∧
    (((s.lane n).loop i).faultIn = true →
      ∃ t, exec (.detectorFaultCleared n i) s = .next t ∧ ((t.lane n).loop i).faultIn = false ∧
        ((t.lane n).loop i).fault = false ∧ ((t.lane n).loop i).occupied = ((s.lane n).loop i).occupied ∧
        ((t.lane n).loop i).debounce =
          (if ((s.lane n).loop i).level = ((s.lane n).loop i).occupied then none
           else some ⟨((s.lane n).loop i).level, (s.lane n).setup.loopFilter⟩) ∧
        (t.lane n).barrier = (s.lane n).barrier ∧ (t.lane n).cause = (s.lane n).cause)

/-- R76, R80, R81: a limit is debounced over 50 ms; its event ends the travel it belongs to, and both limits active together
jam a lane that is DOWN, RAISING, UP or LOWERING. -/
def Obligations.LimitsEndTravel : Prop :=
  (∀ (s : State) (n : LaneId) (i : LimitId) (level : Bool), s.up = true →
    ∃ t, exec (.limitInputChange n i level) s = .next t ∧ ((t.lane n).limit i).level = level ∧
      ((t.lane n).limit i).active = ((s.lane n).limit i).active ∧
      (level = ((s.lane n).limit i).active → ((t.lane n).limit i).debounce = none) ∧
      (level ≠ ((s.lane n).limit i).active → ((s.lane n).limit i).debounce = none →
        ((t.lane n).limit i).debounce = some ⟨level, 50⟩) ∧
      t = s.setLane n ((s.lane n).setLimit i ((t.lane n).limit i))) ∧
  ∀ (s : State) (n : LaneId) (i : LimitId) (x : Debounce), s.up = true →
    ((s.lane n).limit i).debounce = some x →
    let other := (s.lane n).limit (match i with | .up => .down | .down => .up)
    let b := (s.lane n).barrier
    ∃ t, exec (.limitDebounceExpiry n i) s = .next t ∧ ((t.lane n).limit i).active = x.target ∧
      ((t.lane n).limit i).debounce = none ∧ (t.lane n).cause = (s.lane n).cause ∧
      (t.lane n).mark = (s.lane n).mark ∧ (t.lane n).count = (s.lane n).count ∧
      (x.target = true → other.active = true → b = .down ∨ b = .raising ∨ b = .up ∨ b = .lowering →
        (t.lane n).barrier = .jammed ∧ (t.lane n).jam = .bothLimits ∧ (t.lane n).travel = none ∧
        (t.lane n).raiseOut = false ∧ (t.lane n).lowerOut = false ∧ s.tells t (.laneEvent n .jammed)) ∧
      (x.target = true → other.active = false → i = .up → b = .raising →
        (t.lane n).jam = .none ∧
        ((s.lane n).pendingCause (fun _ => true) = true ∨ (s.lane n).settled = false →
          (t.lane n).barrier = .up ∧ (t.lane n).travel = none) ∧
        ((s.lane n).pendingCause (fun _ => true) = false → (s.lane n).settled = true →
          (t.lane n).barrier = .lowering ∧ (t.lane n).travel = some ((s.lane n).setup.travel * 1000))) ∧
      (x.target = true → other.active = false → i = .down → b = .lowering →
        (t.lane n).barrier = .down ∧ (t.lane n).jam = .none ∧ (t.lane n).travel = none) ∧
      (b = .unresolved ∨ b = .jammed → (t.lane n).barrier = b)

/-- R81, R83, R84: a travel timeout jams the lane, cause, mark and count kept; a settle expiry settles it, and an arm that
is UP with no PENDING cause starts to lower. -/
def Obligations.BarrierTimersAct : Prop :=
  (∀ (s : State) (n : LaneId), s.up = true → (s.lane n).travel.isSome = true →
    ((s.lane n).barrier = .raising ∨ (s.lane n).barrier = .lowering) →
    ∃ t, exec (.travelTimerExpiry n) s = .next t ∧ (t.lane n).barrier = .jammed ∧
      (t.lane n).jam = (if (s.lane n).barrier = .raising then .travelRaising else .travelLowering) ∧
      (t.lane n).travel = none ∧ (t.lane n).raiseOut = false ∧ (t.lane n).lowerOut = false ∧
      (t.lane n).goOut = false ∧ (t.lane n).cause = (s.lane n).cause ∧ (t.lane n).mark = (s.lane n).mark ∧
      (t.lane n).count = (s.lane n).count ∧ s.tells t (.laneEvent n .jammed)) ∧
  ∀ (s : State) (n : LaneId), s.up = true → (s.lane n).settle.isSome = true →
    ∃ t, exec (.settleTimerExpiry n) s = .next t ∧ (t.lane n).settled = true ∧ (t.lane n).settle = none ∧
      (t.lane n).cause = (s.lane n).cause ∧
      ((s.lane n).barrier ≠ .up ∨ (s.lane n).pendingCause (fun _ => true) = true →
        (t.lane n).barrier = (s.lane n).barrier) ∧
      ((s.lane n).barrier = .up → (s.lane n).pendingCause (fun _ => true) = false → (s.lane n).bothLimits = false →
        (t.lane n).barrier = (if (s.lane n).down.active then .down else .lowering))

/-- R87: what the resolution finds. -/
def Obligations.ResolutionReadsLimitsAndLoop : Prop :=
  ∀ (s : State) (n : LaneId), s.up = true → (s.lane n).resolution.isSome = true →
    (s.lane n).barrier = .unresolved →
    let up := (s.lane n).up.active
    let down := (s.lane n).down.active
    let occ := (s.lane n).clearLoop.occupied
    ∃ t, exec (.resolutionTimerExpiry n) s = .next t ∧ (t.lane n).resolution = none ∧ (t.lane n).count = 0 ∧
      (up = true → down = true → (t.lane n).barrier = .jammed ∧ (t.lane n).jam = .bothLimits ∧
        (t.lane n).cause = none ∧ s.tells t (.laneEvent n .jammed)) ∧
      (up = false → down = true → (t.lane n).barrier = .down ∧ (t.lane n).cause = none) ∧
      (up = true → down = false → occ = false → (t.lane n).cause = some ⟨.safety, .withdrawn⟩ ∧
        (t.lane n).barrier = (if (s.lane n).settled then .lowering else .up)) ∧
      (up = true → down = false → occ = true → (t.lane n).cause = some ⟨.safety, .pending⟩ ∧
        (t.lane n).barrier = .up) ∧
      (up = false → down = false → occ = false → (t.lane n).barrier = .lowering ∧ (t.lane n).cause = none) ∧
      (up = false → down = false → occ = true → (t.lane n).barrier = .raising ∧
        (t.lane n).cause = some ⟨.safety, .pending⟩) ∧
      (occ = true → down = false → (s.lane n).clearLoop.fault = false → (t.lane n).mark = true)

/-- R88: MANUAL_RAISE keeps a PENDING VISIT cause and gives MANUAL otherwise, and raises an arm that is neither RAISING nor
UP. -/
def Obligations.ManualRaiseRaises : Prop :=
  ∀ (s : State) (l : LinkId) (tag : Byte) (n : LaneId), s.ready l → gateOffice (s.link l).role = true →
    ∃ t, exec (.manualRaise l tag (be1 n.val)) s = .next t ∧ t.replied l tag 0x10 .ok [] ∧
      ((s.lane n).pendingCause Cause.isVisit = true →
        (t.lane n).cause = (s.lane n).cause ∧ (t.lane n).count = (s.lane n).count) ∧
      ((s.lane n).pendingCause Cause.isVisit = false →
        (t.lane n).cause = some ⟨.manual, .pending⟩ ∧ (t.lane n).count = 0) ∧
      ((s.lane n).barrier = .raising ∨ (s.lane n).barrier = .up → (t.lane n).barrier = (s.lane n).barrier) ∧
      ((s.lane n).barrier ≠ .raising → (s.lane n).barrier ≠ .up →
        (t.lane n).resolution = none ∧
        (t.lane n).barrier =
          (if (s.lane n).bothLimits then .jammed else if (s.lane n).up.active then .up else .raising)) ∧
      ((s.lane n).barrier = .jammed → (t.lane n).barrier = .raising → (t.lane n).jam = (s.lane n).jam)

/-- R89, R72: LOWER_RESET by the lane, the barrier state and the cause; bindings and visits stay. -/
def Obligations.LowerResetLowers : Prop :=
  ∀ (s : State) (l : LinkId) (tag : Byte) (n : LaneId), s.ready l → gateOffice (s.link l).role = true →
    let b := (s.lane n).barrier
    let pending := (s.lane n).pendingCause (fun _ => true)
    let withdrawn :=
      (s.lane n).cause.map (fun c => if c.status = .pending then { c with status := .withdrawn } else c)
    let lowered : Barrier :=
      if (s.lane n).bothLimits then .jammed else if (s.lane n).down.active then .down else .lowering
    ∃ t, exec (.lowerReset l tag (be1 n.val)) s = .next t ∧
      (s.disabled n = true → t.replied l tag 0x11 .laneDisabled [] ∧ s.onlyLink t l) ∧
      (s.disabled n = false → b = .jammed → (s.lane n).clearLoop.occupied = false →
        t.replied l tag 0x11 .ok [] ∧ (t.lane n).cause = withdrawn ∧ (t.lane n).barrier = lowered ∧
        t.bound n = s.bound n ∧ t.register.visits = s.register.visits) ∧
      (s.disabled n = false → b = .jammed → (s.lane n).clearLoop.occupied = true →
        t.replied l tag 0x11 .wrongState [] ∧ s.onlyLink t l) ∧
      (s.disabled n = false → b = .raising ∨ b = .up →
        ((s.lane n).pendingCause Cause.isVisit = true → t.replied l tag 0x11 .wrongState [] ∧ s.onlyLink t l) ∧
        ((s.lane n).pendingCause Cause.isVisit = false →
          t.replied l tag 0x11 .ok [] ∧ (t.lane n).cause = withdrawn ∧
          (pending = true → b = .up → (s.lane n).settled = true → (t.lane n).barrier = lowered) ∧
          (pending = false ∨ b = .raising ∨ (s.lane n).settled = false → (t.lane n).barrier = b))) ∧
      (s.disabled n = false → b = .down ∨ b = .lowering ∨ b = .unresolved →
        t.replied l tag 0x11 .wrongState [] ∧ s.onlyLink t l)

/-- R90, R79: a RERAISE that passes its checks raises the DOWN arm for the bound visit again. -/
def Obligations.ReraiseRaisesForVisit : Prop :=
  ∀ (s : State) (l : LinkId) (tag : Byte) (n : LaneId) (v : Visit), s.ready l → s.disabled n = false →
    s.register.mode ≠ .closed → s.closingHolds → s.bound n = some v.number → s.register.find v.number = some v →
    (v.state = .entering ∧ (s.lane n).setup.direction = .entry ∨
      v.state = .released ∧ (s.lane n).setup.direction = .exit) →
    (s.deck n).service = false → (s.lane n).barrier = .down → (s.lane n).deckLoop.occupied = true →
    ∃ t, exec (.reraise l tag (be1 n.val)) s = .next t ∧ t.replied l tag 0x05 .ok [] ∧
      (t.lane n).cause =
        some ⟨if v.state = .entering then .admitted v.number else .released v.number, .pending⟩ ∧
      (t.lane n).count = 0 ∧ t.register = s.register ∧
      (t.lane n).barrier =
        (if (s.lane n).bothLimits then .jammed else if (s.lane n).up.active then .up else .raising) ∧
      ((t.lane n).goOut = true ↔ (t.lane n).barrier ≠ .jammed)


/-! ### Visits -/

/-- R101, R52, R110, R111, R39: the checks of ADMIT, DEPART and ZERO in their order; the first that fails gives the
refusal, and nothing but the link changes. The plan of a visit is that of R99, for an ADMIT after the lookup of R102. -/
def Obligations.VisitChecksRefuseInOrder : Prop :=
  (∀ (s : State) (l : LinkId) (tag : Byte) (p : List Byte) (f : AdmitFields), s.ready l →
    gateOffice (s.link l).role = true → admitFields? p = some f →
    let weighs := ¬(f.tareMode = .stored ∧ f.direction = .collection ∧
      ∃ i e, s.store.lookup f.plate = some (i, e) ∧ (e.expiry = 0 ∨ s.clock.time / 86400 ≤ e.expiry))
    s.refusesInOrder (.admitVehicle l tag p) l tag 0x01
      [(s.disabled f.lane = false, .laneDisabled), ((s.lane f.lane).setup.direction = .entry, .wrongLane),
       (s.register.mode ≠ .closed, .yardClosed), (s.register.mode ≠ .closing, .yardClosing),
       (s.bound f.lane = none, .lanePending), ((s.lane f.lane).deckLoop.occupied = true, .noVehicle),
       (∀ x ∈ s.register.visits, x.plate ≠ f.plate, .duplicate), (s.register.visits.length < 96, .registerFull),
       (s.journal.held + s.register.unreleased + 1 ≤ 512, .journalFull),
       ((s.deck f.lane).service = false ∧ (weighs → (s.deck f.lane).state ≠ .fault), .deckNotReady),
       (weighs → (s.deck f.lane).state.capturable = true, .deckNotReady),
       (weighs → ∀ c, (s.unit f.lane).cap = some c → c.owner.kind = .spot, .deckBusy)]) ∧
  (∀ (s : State) (l : LinkId) (tag : Byte) (p : List Byte) (f : DepartFields), s.ready l → departFields? p = some f →
    let known : List (Prop × Status) :=
      [(s.disabled f.lane = false, .laneDisabled), ((s.lane f.lane).setup.direction = .exit, .wrongLane),
       (s.register.mode ≠ .closed, .yardClosed), (s.bound f.lane = none, .lanePending),
       ((s.lane f.lane).deckLoop.occupied = true, .noVehicle), (s.register.find f.visit ≠ none, .noSuchVisit)]
    s.refusesInOrder (.depart l tag p) l tag 0x02 known ∧
      ∀ v, s.register.find f.visit = some v →
        let weighs := ¬(v.tareMode = .stored ∧ v.direction = .delivery)
        s.refusesInOrder (.depart l tag p) l tag 0x02
          (known ++
            [(v.state = .onSite, .wrongState), (f.plate = none ∨ f.plate = some v.plate, .mismatch),
             ((s.deck f.lane).service = false ∧ (weighs → (s.deck f.lane).state ≠ .fault), .deckNotReady),
             (weighs → (s.deck f.lane).state.capturable = true, .deckNotReady),
             (weighs → ∀ c, (s.unit f.lane).cap = some c → c.owner.kind = .spot, .deckBusy)])) ∧
  ∀ (s : State) (l : LinkId) (tag : Byte) (d : DeckId), s.ready l → gateOffice (s.link l).role = true →
    s.refusesInOrder (.zeroDeck l tag (be1 d.val)) l tag 0x1A
      [((s.deck d).state = .active ∨ (s.deck d).state = .service, .deckNotReady),
       ((s.deck d).zeroCal = [], .wrongState), ((s.unit d).cap = none, .deckBusy),
       ((s.lane d).deckLoop.occupied = false, .zeroRange),
       ((s.deck d).stable = true ∧ (s.deck d).current.isSome = true, .unstable),
       (∃ w, (s.deck d).current = some w ∧ (w.a.natAbs : Int) ≤ (s.deck d).setup.max * 20, .zeroRange)]

/-- R101 to R103, R52, R55, R62, R95, R98: an ADMIT that passes its checks and needs an entry weighing appends the visit
with the next free number, binds the lane, starts the VISIT_IN capture (a waiting SPOT ending PREEMPTED) and is answered
ACCEPTED with the number; a stored tare that can be used is the visit's, with the entry's account where none is given; one
that cannot falls back to WEIGHED. -/
def Obligations.AdmitStartsEntryWeighing : Prop :=
  ∀ (s : State) (l : LinkId) (tag : Byte) (p : List Byte) (f : AdmitFields), s.ready l →
    gateOffice (s.link l).role = true → admitFields? p = some f → s.disabled f.lane = false →
    (s.lane f.lane).setup.direction = .entry → s.register.mode = .opened → s.bound f.lane = none →
    (s.lane f.lane).deckLoop.occupied = true → (∀ x ∈ s.register.visits, x.plate ≠ f.plate) →
    s.register.visits.length < 96 → s.journal.held + s.register.unreleased + 1 ≤ 512 →
    (s.deck f.lane).service = false → (s.deck f.lane).state.capturable = true →
    (∀ c, (s.unit f.lane).cap = some c → c.owner.kind = .spot) →
    (f.tareMode = .weighed ∨ f.direction = .delivery ∨
      ∀ i e, s.store.lookup f.plate = some (i, e) → e.expiry ≠ 0 ∧ e.expiry < s.clock.time / 86400) →
    let stored := f.tareMode = .stored ∧
      ∃ i e, s.store.lookup f.plate = some (i, e) ∧ (e.expiry = 0 ∨ s.clock.time / 86400 ≤ e.expiry)
    ∃ t v, exec (.admitVehicle l tag p) s = .next t ∧ t.replied l tag 0x01 .accepted (be2 v.number) ∧
      t.register.visits = s.register.visits ++ [v] ∧ v.number = s.register.newNumber ∧ v.plate = f.plate ∧
      v.stream = f.stream ∧ v.direction = f.direction ∧ v.entryLane = f.lane ∧ v.exitLane = none ∧ v.link = l ∧
      v.admitted = s.clock.time ∧ v.state = .weighIn ∧ v.capMark = true ∧ v.first = none ∧ v.second = none ∧
      (∀ i e, f.tareMode = .stored → s.store.lookup f.plate = some (i, e) →
        (e.expiry = 0 ∨ s.clock.time / 86400 ≤ e.expiry) →
        v.tareMode = .stored ∧ v.storedTare = some e.tare ∧ v.flags.tareFallback = false ∧
        v.account = (match f.account with | some a => some a | none => e.account)) ∧
      (¬stored → v.tareMode = .weighed ∧ v.storedTare = none ∧ v.account = f.account ∧
        (v.flags.tareFallback = true ↔ f.tareMode = .stored)) ∧
      t.register.counter = (if v.number = 65535 then 1 else v.number + 1) ∧ t.bound f.lane = some v.number ∧
      (t.unit f.lane).cap = some ⟨.visitIn v.number, s.clock.time,
        if (s.deck f.lane).state = .active then
          .running s.clock.time ((s.deck f.lane).setup.stableTimeout * 1000)
        else .notStarted⟩ ∧
      ((s.deck f.lane).state ≠ .active → (t.deck f.lane).state = .warming ∧ (t.deck f.lane).wakeCause = .request) ∧
      s.tells t (.visit v.number .admitted) ∧
      ∀ c lk, (s.unit f.lane).cap = some c → c.owner = .spot lk →
        (t.unit f.lane).lastSpot = some ⟨lk, c.start, .failed .preempted⟩ ∧
        (s.link lk).told (t.link lk) (.capture f.lane (.spot lk) (.failed .preempted))

/-- R101 to R103, R79: an ADMIT of a COLLECTION visit on a usable stored tare needs no weighing: the visit is ENTERING with
the tare copied, the lane is asked to raise, and the reply is OK with the number. -/
def Obligations.AdmitOnStoredTareRaises : Prop :=
  ∀ (s : State) (l : LinkId) (tag : Byte) (p : List Byte) (f : AdmitFields) (i : Fin 256) (e : TareEntry),
    s.ready l → gateOffice (s.link l).role = true → admitFields? p = some f → s.disabled f.lane = false →
    (s.lane f.lane).setup.direction = .entry → s.register.mode = .opened → s.bound f.lane = none →
    (s.lane f.lane).deckLoop.occupied = true → (∀ x ∈ s.register.visits, x.plate ≠ f.plate) →
    s.register.visits.length < 96 → s.journal.held + s.register.unreleased + 1 ≤ 512 →
    (s.deck f.lane).service = false → f.tareMode = .stored → f.direction = .collection →
    s.store.lookup f.plate = some (i, e) → (e.expiry = 0 ∨ s.clock.time / 86400 ≤ e.expiry) →
    ∃ t v, exec (.admitVehicle l tag p) s = .next t ∧ t.replied l tag 0x01 .ok (be2 v.number) ∧
      t.register.visits = s.register.visits ++ [v] ∧ v.number = s.register.newNumber ∧ v.plate = f.plate ∧
      v.state = .entering ∧ v.capMark = false ∧ v.tareMode = .stored ∧ v.storedTare = some e.tare ∧
      v.account = (match f.account with | some a => some a | none => e.account) ∧ v.flags.tareFallback = false ∧
      t.bound f.lane = some v.number ∧ t.unit f.lane = s.unit f.lane ∧ s.tells t (.visit v.number .admitted) ∧
      (t.lane f.lane).cause = some ⟨.admitted v.number, .pending⟩ ∧ (t.lane f.lane).count = 0 ∧
      ((s.lane f.lane).barrier = .down → (t.lane f.lane).barrier =
        (if (s.lane f.lane).bothLimits then .jammed else if (s.lane f.lane).up.active then .up else .raising)) ∧
      ((s.lane f.lane).barrier = .jammed → (t.lane f.lane).barrier = .jammed)

/-- R110 to R112, R52: a DEPART that passes its checks and needs an exit weighing makes the visit WEIGH_OUT on the exit
lane, binds it, starts the VISIT_OUT capture and is answered ACCEPTED with ticket number 0. -/
def Obligations.DepartStartsExitWeighing : Prop :=
  ∀ (s : State) (l : LinkId) (tag : Byte) (p : List Byte) (f : DepartFields) (v : Visit), s.ready l →
    departFields? p = some f → s.disabled f.lane = false → (s.lane f.lane).setup.direction = .exit →
    s.register.mode ≠ .closed → s.bound f.lane = none → (s.lane f.lane).deckLoop.occupied = true →
    s.register.find f.visit = some v → v.state = .onSite → (f.plate = none ∨ f.plate = some v.plate) →
    (s.deck f.lane).service = false → (s.deck f.lane).state.capturable = true →
    (∀ c, (s.unit f.lane).cap = some c → c.owner.kind = .spot) →
    ¬(v.tareMode = .stored ∧ v.direction = .delivery) →
    ∃ t, exec (.depart l tag p) s = .next t ∧ t.replied l tag 0x02 .accepted (be4 0) ∧
      t.register.find f.visit = some { v with
        exitLane := some f.lane, state := .weighOut, capMark := true
        flags := { v.flags with plateUnchecked := f.plate.isNone } } ∧
      t.bound f.lane = some f.visit ∧
      (t.unit f.lane).cap = some ⟨.visitOut f.visit, s.clock.time,
        if (s.deck f.lane).state = .active then
          .running s.clock.time ((s.deck f.lane).setup.stableTimeout * 1000)
        else .notStarted⟩ ∧
      t.journal.records = s.journal.records ∧ t.journal.counter = s.journal.counter

/-- R112, R114, R99, R100, R150: a DEPART of a DELIVERY visit on its stored tare is released at once: its record is written
with the counter's number and the net, the visit is RELEASED and bound, the lane is asked to raise, and the reply is OK
with the ticket number. -/
def Obligations.DepartReleasesStoredDelivery : Prop :=
  ∀ (s : State) (l : LinkId) (tag : Byte) (p : List Byte) (f : DepartFields) (v : Visit) (w : Weighing)
    (tare num : Nat), s.ready l →
    departFields? p = some f → s.disabled f.lane = false → (s.lane f.lane).setup.direction = .exit →
    s.register.mode ≠ .closed → s.bound f.lane = none → (s.lane f.lane).deckLoop.occupied = true →
    s.register.find f.visit = some v → v.state = .onSite → (f.plate = none ∨ f.plate = some v.plate) →
    (s.deck f.lane).service = false → v.tareMode = .stored → v.direction = .delivery → v.first = some w →
    v.storedTare = some tare → s.journal.counter = some num →
    let flags : VisitFlags := { v.flags with plateUnchecked := f.plate.isNone }
    ∃ t, exec (.depart l tag p) s = .next t ∧ t.replied l tag 0x02 .ok (be4 num) ∧
      t.journal.records =
        (if s.journal.records.length < 512 then s.journal.records else s.journal.records.drop 1) ++
        [{ number := num, kind := .storedTare, visit := f.visit, plate := v.plate, stream := v.stream
           direction := .delivery, link := v.link, account := v.account
           first := some ⟨w.deck, w.weight, w.time⟩, second := v.second.map Weighing.onTicket
           storedTare := some tare, net := some (if w.weight < tare then 0 else (w.weight - tare).toNat)
           admitted := v.admitted, ticketed := s.clock.time, flags := flags
           reversed := decide (w.weight < tare) }] ∧
      t.journal.counter = some (if num = 4294967295 then 1 else num + 1) ∧
      t.register.find f.visit = some { v with
        exitLane := some f.lane, state := .released, ticket := some num, flags := flags } ∧
      t.bound f.lane = some f.visit ∧ t.unit f.lane = s.unit f.lane ∧
      (t.lane f.lane).cause = some ⟨.released f.visit, .pending⟩ ∧ (t.lane f.lane).count = 0

/-- R108, R109, R117: RECAPTURE starts a new VISIT_IN capture for the WEIGH_IN visit of its lane; CANCEL removes a WEIGH_IN
visit with its capture and without a record; CLEAR_LANE removes a RELEASED visit, its cause withdrawn and its ticket
standing. -/
def Obligations.LaneRequestsServeBoundVisit : Prop :=
  ∀ (s : State) (l : LinkId) (tag : Byte) (n : LaneId) (v : Visit), s.ready l → gateOffice (s.link l).role = true →
    s.disabled n = false → s.bound n = some v.number → s.register.find v.number = some v →
    (v.state = .weighIn → s.register.mode ≠ .closed → (s.lane n).deckLoop.occupied = true →
      (s.deck n).state.capturable = true → (∀ c, (s.unit n).cap = some c → c.owner.kind = .spot) →
      ∃ t, exec (.recapture l tag (be1 n.val)) s = .next t ∧ t.replied l tag 0x03 .accepted [] ∧
        (t.unit n).cap = some ⟨.visitIn v.number, s.clock.time,
          if (s.deck n).state = .active then .running s.clock.time ((s.deck n).setup.stableTimeout * 1000)
          else .notStarted⟩ ∧
        t.register.find v.number = some { v with capMark := true } ∧ t.bound n = some v.number) ∧
    (v.state = .weighIn →
      ∃ t, exec (.cancel l tag (be1 n.val)) s = .next t ∧ t.replied l tag 0x04 .ok [] ∧
        t.register.visits = s.register.visits.filter (fun x => x.number != v.number) ∧ t.bound n = none ∧
        t.journal.records = s.journal.records ∧ s.tells t (.visit v.number .cancelled) ∧
        ∀ c, (s.unit n).cap = some c → c.owner = .visitIn v.number →
          (t.unit n).cap = none ∧ s.tells t (.capture n c.owner (.failed .aborted))) ∧
    (v.state = .released →
      ∃ t, exec (.clearLane l tag (be1 n.val)) s = .next t ∧ t.replied l tag 0x06 .ok [] ∧
        t.register.visits = s.register.visits.filter (fun x => x.number != v.number) ∧ t.bound n = none ∧
        t.journal.records = s.journal.records ∧ s.tells t (.visit v.number .removedWithoutPassage) ∧
        ∀ c, (s.lane n).cause = some c → c.isPending = true → c.kind.visit? = some v.number →
          (t.lane n).cause = some { c with status := .withdrawn })

/-- R118, R114, R119, R120: VOID removes a visit that is ENTERING, ON_SITE or WEIGH_OUT with a VOID record that bears no
net, and a WEIGH_IN visit with none; on the visit's lane it withdraws the visit's PENDING cause (R86), unless the visit is
WEIGH_IN, and ends the waiting capture of the visit ABORTED (R61), whose outcome finds no visit (R106). RECLASSIFY gives a
visit its new stream and flag; both are refused ALREADY_TICKETED for a RELEASED visit and NO_SUCH_VISIT for a number the
register does not hold. -/
def Obligations.VoidAndReclassifyActByVisitState : Prop :=
  ∀ (s : State) (l : LinkId) (tag : Byte) (num st : Nat), s.ready l → gateOffice (s.link l).role = true →
    num < 65536 → 1 ≤ st → st ≤ 31 →
    ∃ t u, exec (.voidVisit l tag (be2 num)) s = .next t ∧
      exec (.reclassify l tag (be2 num ++ be1 st)) s = .next u ∧
      (s.register.find num = none → t.replied l tag 0x07 .noSuchVisit [] ∧ s.onlyLink t l ∧
        u.replied l tag 0x08 .noSuchVisit [] ∧ s.onlyLink u l) ∧
      ∀ v, s.register.find num = some v →
        (v.state = .released → t.replied l tag 0x07 .alreadyTicketed [] ∧ s.onlyLink t l ∧
          u.replied l tag 0x08 .alreadyTicketed [] ∧ s.onlyLink u l) ∧
        (v.state ≠ .released →
          t.replied l tag 0x07 .ok [] ∧
          t.register.visits = s.register.visits.filter (fun x => x.number != num) ∧
          (∀ n, t.bound n ≠ some num) ∧
          u.replied l tag 0x08 .ok [] ∧
          u.register.find num =
            some { v with stream := st, flags := { v.flags with reclassified := true } } ∧
          u.register.bindings = s.register.bindings ∧ s.tells u (.visit num .reclassified)) ∧
        (v.state = .weighIn → t.journal.records = s.journal.records ∧ s.tells t (.visit num .cancelled)) ∧
        (∀ n, (v.state = .weighIn ∨ v.state = .entering) ∧ n = v.entryLane ∨
            v.state = .weighOut ∧ v.exitLane = some n →
          (v.state ≠ .weighIn → ∀ c, (s.lane n).cause = some c → c.isPending = true → c.kind.visit? = some num →
            (t.lane n).cause = some { c with status := .withdrawn }) ∧
          ∀ c, (s.unit n).cap = some c → c.owner = .visitIn num ∨ c.owner = .visitOut num →
            (t.unit n).cap = none ∧ s.tells t (.capture n c.owner (.failed .aborted))) ∧
        (v.state = .entering ∨ v.state = .onSite ∨ v.state = .weighOut → s.tells t (.visit num .voided) ∧
          ∀ c, s.journal.counter = some c →
            t.journal.counter = some (if c = 4294967295 then 1 else c + 1) ∧
            t.journal.records =
              (if s.journal.records.length < 512 then s.journal.records else s.journal.records.drop 1) ++
              [{ number := c, kind := .void, visit := num, plate := v.plate, stream := v.stream
                 direction := v.direction, link := v.link, account := v.account
                 first := v.first.map Weighing.onTicket, second := v.second.map Weighing.onTicket
                 storedTare := v.storedTare, net := none, admitted := v.admitted, ticketed := s.clock.time
                 flags := v.flags, reversed := false }])

/-- R123 to R126, R48: what SET_YARD_MODE does by the current mode; a change is told as a YARD notice, and a yard that
becomes CLOSED puts its ACTIVE and WARMING decks to SLEEP and keeps the visits' order. R125: a FORCE_CLOSED ends the
waiting capture of a WEIGH_IN or WEIGH_OUT visit ABORTED, the first staying WEIGH_IN and bound, the second returning to
ON_SITE, unbound; it withdraws the PENDING cause of an ENTERING or RELEASED visit, which stays as it is and bound; every
other visit stays as it is. (Where the register is sound, an invariant of every step.) -/
def Obligations.YardModeFollowsRequest : Prop :=
  ∀ (s : State) (l : LinkId) (tag : Byte), s.ready l → (s.link l).role = .office → s.closingHolds →
    ∃ tOpen tClosing tForce, exec (.setYardMode l tag [1]) s = .next tOpen ∧
      exec (.setYardMode l tag [2]) s = .next tClosing ∧ exec (.setYardMode l tag [4]) s = .next tForce ∧
      (s.register.mode = .opened →
        tOpen.replied l tag 0x28 .ok [] ∧ s.onlyLink tOpen l ∧ tClosing.replied l tag 0x28 .ok [] ∧
        (s.register.visits ≠ [] →
          tClosing.register = { s.register with mode := .closing } ∧ s.tells tClosing (.yard .closing)) ∧
        (s.register.visits = [] → tClosing.register.mode = .closed ∧ s.tells tClosing (.yard .closed) ∧
          ∀ d, (tClosing.deck d).state ≠ .active ∧ (tClosing.deck d).state ≠ .warming)) ∧
      (s.register.mode = .closing →
        tOpen.replied l tag 0x28 .ok [] ∧ tOpen.register = { s.register with mode := .opened } ∧
        s.tells tOpen (.yard .opened) ∧ tClosing.replied l tag 0x28 .ok [] ∧ s.onlyLink tClosing l) ∧
      (s.register.mode ≠ .closed →
        tForce.replied l tag 0x28 .ok [] ∧ tForce.register.mode = .closed ∧ s.tells tForce (.yard .closed) ∧
        tForce.register.visits.map (·.number) = s.register.visits.map (·.number) ∧
        tForce.journal.records = s.journal.records ∧
        (∀ d, (tForce.deck d).state =
          (if (s.deck d).state = .active ∨ (s.deck d).state = .warming then .sleep else (s.deck d).state)) ∧
        (s.register.distinct → s.register.boundOnce → ∀ v ∈ s.register.visits,
          (v.state = .onSite → tForce.register.find v.number = some v) ∧
          (v.state = .weighIn → (∀ d c, (s.unit d).cap = some c → c.owner ≠ .visitIn v.number) →
            tForce.register.find v.number = some v ∧ ∀ n, tForce.bound n = some v.number ↔ s.bound n = some v.number) ∧
          (∀ c, v.state = .weighIn → s.bound v.entryLane = some v.number → (s.unit v.entryLane).cap = some c →
            c.owner = .visitIn v.number →
            (tForce.unit v.entryLane).cap = none ∧ s.tells tForce (.capture v.entryLane c.owner (.failed .aborted)) ∧
            tForce.register.find v.number = some { v with failure := some .aborted, capMark := false } ∧
            tForce.bound v.entryLane = some v.number) ∧
          (∀ n c, v.state = .weighOut → v.exitLane = some n → s.bound n = some v.number → (s.unit n).cap = some c →
            c.owner = .visitOut v.number →
            (tForce.unit n).cap = none ∧ s.tells tForce (.capture n c.owner (.failed .aborted)) ∧
            tForce.register.find v.number =
              some { v with state := .onSite, exitLane := none, failure := some .aborted, capMark := false } ∧
            ∀ m, tForce.bound m ≠ some v.number) ∧
          ∀ n, v.state = .entering ∧ v.entryLane = n ∨ v.state = .released ∧ v.exitLane = some n →
            tForce.register.find v.number = some v ∧
            (∀ m, tForce.bound m = some v.number ↔ s.bound m = some v.number) ∧
            ∀ c, (s.lane n).cause = some c → c.isPending = true → c.kind.visit? = some v.number →
              (tForce.lane n).cause = some { c with status := .withdrawn })) ∧
      (s.register.mode = .closed →
        tClosing.replied l tag 0x28 .wrongState [] ∧ s.onlyLink tClosing l ∧
        tForce.replied l tag 0x28 .wrongState [] ∧ s.onlyLink tForce l ∧
        (s.clock.isSet = true ∧ s.journal.counter.isSome = true →
          tOpen.replied l tag 0x28 .ok [] ∧ tOpen.register = { s.register with mode := .opened } ∧
          s.tells tOpen (.yard .opened)) ∧
        (s.clock.isSet = false ∨ s.journal.counter = none →
          tOpen.replied l tag 0x28 .clockUnset [] ∧ s.onlyLink tOpen l))

/-! ### The store -/

/-- R133, R134, R132, R129: TARE_WRITE starts the write of its registration's VALID entry, or of the lowest index that
holds none, or is refused STORE_FULL; TARE_ERASE starts the erase of that entry, or is refused NOT_FOUND; both are
refused STORE_BUSY while a write is in flight. Nothing else but the link changes. -/
def Obligations.TareRequestsStartWrites : Prop :=
  ∀ (s : State) (l : LinkId) (tag : Byte), s.ready l → (s.link l).role = .office →
    (∀ (p : List Byte) (e : TareEntry), tareWriteFields? p = some e →
      ∃ t, exec (.tareWrite l tag p) s = .next t ∧
        (s.store.engine.isSome = true → t.replied l tag 0x20 .storeBusy [] ∧ s.onlyLink t l) ∧
        (∀ j x, s.store.engine = none → s.store.lookup e.plate = some (j, x) →
          t.replied l tag 0x20 .accepted (be1 j.val) ∧
          t = { s with store := { s.store with engine := some ⟨.tare j (some e), none, 8⟩ } }.setLink l (t.link l)) ∧
        (∀ j, s.store.engine = none → s.store.lookup e.plate = none → (s.store.tare.get j).status ≠ .valid →
          (∀ i, i < j → (s.store.tare.get i).status = .valid) →
          t.replied l tag 0x20 .accepted (be1 j.val) ∧
          t = { s with store := { s.store with engine := some ⟨.tare j (some e), none, 8⟩ } }.setLink l (t.link l)) ∧
        (s.store.engine = none → s.store.lookup e.plate = none → (∀ i, (s.store.tare.get i).status = .valid) →
          t.replied l tag 0x20 .storeFull [] ∧ s.onlyLink t l)) ∧
    ∀ (p : List Byte) (plate : Plate), plateField? p = some plate →
      ∃ t, exec (.tareErase l tag p) s = .next t ∧
        (s.store.engine.isSome = true → t.replied l tag 0x21 .storeBusy [] ∧ s.onlyLink t l) ∧
        (∀ j x, s.store.engine = none → s.store.lookup plate = some (j, x) →
          t.replied l tag 0x21 .accepted (be1 j.val) ∧
          t = { s with store := { s.store with engine := some ⟨.tare j none, none, 8⟩ } }.setLink l (t.link l)) ∧
        (s.store.engine = none → s.store.lookup plate = none →
          t.replied l tag 0x21 .notFound [] ∧ s.onlyLink t l)

/-- R136 to R140, R190: a SETUP_WRITE in range whose condition holds starts its write and is answered ACCEPTED, the record
in effect unchanged; its fields are read back from the bytes in which SETUP_READ shows the record. -/
def Obligations.SetupWriteStartsWrite : Prop :=
  ∀ (s : State) (l : LinkId) (tag : Byte) (calen : Bool), s.ready l → (s.link l).role = .office →
    s.store.engine = none →
    let starts := fun (p : List Byte) (w : StoreWrite) =>
      ∃ t, exec (.setupWrite l tag p calen) s = .next t ∧ t.replied l tag 0x23 .accepted [] ∧
        t = { s with
              store := { s.store with engine := some ⟨w, none, 8⟩ }
              power := { s.power with calen := calen } }.setLink l (t.link l)
    (∀ (c : ChanId) (r : CalRecord), r.inRange → calen = true →
      (∀ d, (s.chan c).cal.deck = some d ∨ r.deck = some d → (s.deck d).service = true) →
      (∀ d, r.deck = some d → ((s.memberIds d).filter (fun x => x != c)).length < 8) →
      starts (be1 c.val ++ r.bytes) (.cal c r)) ∧
    (∀ (d : DeckId) (u : DeckSetup), u.inRange → ((s.deck d).service = true ∨ (s.deck d).state = .unused) →
      starts (be1 (16 + d.val) ++ u.bytes) (.deck d u)) ∧
    (∀ (n : LaneId) (u : LaneSetup), u.inRange → ((s.lane n).barrier = .down ∨ s.disabled n = true) →
      (s.bound n = none ∨ u.direction = (s.lane n).setup.direction ∧ u.enabled = true) →
      starts (be1 (20 + n.val) ++ u.bytes) (.lane n u)) ∧
    ∀ u : YardSetup, u.inRange → starts (be1 24 ++ u.bytes) (.yard u)

/-- R132, R11, R13, R71, R140, R41: the write's end makes its content the stored one with status VALID (EMPTY for an erase),
has a setup record take effect, frees the engine or starts the next write of a ZERO_CAL, and is told "write done". R98: a
lane bound by then keeps its direction; that the other fields take effect on it is log entry 30. -/
def Obligations.CompletedWriteTakesEffect : Prop :=
  ∀ (s : State) (g : Engine), s.up = true → s.closingHolds → s.store.engine = some g →
    ∃ t, exec .storeWriteDone s = .next t ∧ s.tells t (.storeDone g.write.place.1 g.write.place.2) ∧
      (g.zeroCal = none → t.store.engine = none) ∧
      (∀ i e, g.write = .tare i (some e) → t.store.tare = setAt s.store.tare i ⟨.content e, .valid⟩) ∧
      (∀ i, g.write = .tare i none → t.store.tare = setAt s.store.tare i ⟨.emptyMarker, .empty⟩) ∧
      (∀ c r, g.write = .cal c r → t.store.cal = setAt s.store.cal c ⟨.content r, .valid⟩ ∧ (t.chan c).cal = r ∧
        (t.chan c).raw = (s.chan c).raw ∧
        ∀ d, r.deck = some d ∨ (s.chan c).cal.deck = some d → (t.deck d).window = [] ∧ (t.deck d).current = none) ∧
      (∀ d u, g.write = .deck d u → t.store.deck = setAt s.store.deck d ⟨.content u, .valid⟩ ∧
        (t.deck d).setup = u ∧ (t.deck d).setupBad = false ∧ (t.deck d).window = [] ∧
        ((s.deck d).zd.natAbs ≤ u.max * 20 → g.zeroCal = none →
          (t.deck d).zd = (s.deck d).zd ∧ (t.deck d).zeroLimit = (s.deck d).zeroLimit) ∧
        (u.max * 20 < (s.deck d).zd.natAbs → g.zeroCal = none →
          (t.deck d).zd.natAbs = u.max * 20 ∧ (t.deck d).zeroLimit = true) ∧
        ((s.deck d).state = .unused → s.members d ≠ [] → (t.deck d).state =
          (if (s.deck d).service then .service else if s.register.mode = .closed then .sleep else .warming))) ∧
      (∀ n u, g.write = .lane n u → t.store.lane = setAt s.store.lane n ⟨.content u, .valid⟩ ∧
        (s.bound n = none → (t.lane n).setup = u) ∧
        ((s.bound n).isSome = true → (t.lane n).setup = { u with direction := (s.lane n).setup.direction }) ∧
        (t.lane n).setupBad = false ∧ (t.deck n).wakeMask = u.wake ∧
        (t.lane n).barrier = (s.lane n).barrier ∧ (t.lane n).cause = (s.lane n).cause) ∧
      (∀ u, g.write = .yard u → t.store.yard = ⟨.content u, .valid⟩ ∧ t.store.yardSetup = u ∧
        t.store.yardBad = false ∧
        (u.p ≠ s.store.yardSetup.p → t.period = some (1250 * 2 ^ u.p) ∧ ∀ c, (t.chan c).missed = 0) ∧
        (u.p = s.store.yardSetup.p → t.period = s.period)) ∧
      (∀ c r d x, g.write = .cal c r → g.zeroCal = some d → (s.deck d).zeroCal = [x] →
        t.store.engine = none ∧ (t.deck d).zeroCal = [] ∧ (t.deck d).zd = 0 ∧ (t.deck d).zeroLimit = false) ∧
      ∀ c r d x c2 z2 rest, g.write = .cal c r → g.zeroCal = some d → (s.deck d).zeroCal = x :: (c2, z2) :: rest →
        c2 ≠ c → (t.deck d).zeroCal = (c2, z2) :: rest ∧ (t.deck d).zd = (s.deck d).zd ∧
          t.store.engine = some ⟨.cal c2 { (s.chan c2).cal with zero := z2 }, some d, 8⟩

/-! ### Clock, ticket base and reads -/

/-- R197, R198, R121, R199: a second advances a set clock by one, not beyond its last value, and leaves an unset one;
SET_CLOCK sets the time and the mark; each is followed by the overstay judgment, which flags and tells every visit not
yet flagged whose stay has expired. Nothing else but the links changes. -/
def Obligations.ClockAdvancesAndJudgesOverstay : Prop :=
  (∀ s : State, s.up = true → s.clock.isSet = true → s.clock.time < 4294967295 →
    ∃ t, exec .clockSecond s = .next t ∧ t.clock = ⟨s.clock.time + 1, true, 0⟩ ∧ s.judgedAt t (s.clock.time + 1) ∧
      t = { s with clock := t.clock, register := t.register, links := t.links }) ∧
  (∀ s : State, s.clock.isSet = false ∨ s.clock.time = 4294967295 → exec .clockSecond s = .next s) ∧
  ∀ (s : State) (l : LinkId) (tag : Byte) (now : Nat), s.ready l → (s.link l).role = .office → now < 4294967296 →
    ∃ t, exec (.setClock l tag (be4 now)) s = .next t ∧ t.replied l tag 0x29 .ok [] ∧ t.clock = ⟨now, true, 0⟩ ∧
      s.judgedAt t now ∧ t = { s with clock := t.clock, register := t.register, links := t.links }

/-- R149: SET_TICKET_BASE takes a number from 1 to 4,294,967,295 on an OFFICE link: an unset counter takes it and the reply
is OK; a set one keeps its value and the reply is WRONG_STATE; 0 is BAD_REQUEST at decoding, before the permission. In
every yard mode; the journal is empty while its counter is unset, and a cursor at the head stays at the head. -/
def Obligations.TicketBaseSetsUnsetCounter : Prop :=
  ∀ (s : State) (l : LinkId) (tag : Byte) (n : Nat), s.ready l → n < 4294967296 →
    ∃ t, exec (.setTicketBase l tag (be4 n)) s = .next t ∧
      (n = 0 → t.replied l tag 0x2B .badRequest [] ∧ s.onlyLink t l) ∧
      (n ≠ 0 → (s.link l).role ≠ .office → t.replied l tag 0x2B .notPermitted [] ∧ s.onlyLink t l) ∧
      (n ≠ 0 → (s.link l).role = .office → s.journal.counter.isSome = true →
        t.replied l tag 0x2B .wrongState [] ∧ s.onlyLink t l) ∧
      (n ≠ 0 → (s.link l).role = .office → s.journal.counter = none →
        t.replied l tag 0x2B .ok [] ∧
        t = { s with journal := { s.journal with counter := some n } }.setLink l (t.link l) ∧
        (s.journal.sequenced → t.journal.records = [] ∧ ∀ r, (t.journal.place n r).records = [{ r with number := n }]))

/-- R26, R49, R68, R92, R127, R135, R141, R160, R168, R199, R206: each read is answered OK with the data of its rule, or
refused where the thing named is not there, and nothing but the link changes. The bytes of IDENTIFY, READ_CLOCK (R199), the
slot pair status (R190) and the ticket record (R193) are written out from their tables; those of the other reads are the
model's layout functions. -/
def Obligations.ReadsReportAndChangeNothing : Prop :=
  ∀ (s : State) (l : LinkId) (tag : Byte), s.ready l →
    let answers := fun (i : Instr) (code : Byte) (st : Status) (data : List Byte) =>
      ∃ t, exec i s = .next t ∧ t.replied l tag code st data ∧ s.onlyLinkAndPin t l
    answers (.readClock l tag []) 0x2A .ok s.clockBytes ∧
    answers (.identify l tag []) 0x2D .ok
      ([0x0A, 0x6E, 0x01, 0xB8, 3, 2] ++ be1 l.val ++ be1 (s.link l).role.code ++ be1 (s.link l).speed.toNat) ∧
    (∀ d : DeckId, answers (.readDeck l tag (be1 d.val)) 0x30 .ok (readDeckData s d)) ∧
    (∀ n : LaneId, answers (.readLane l tag (be1 n.val)) 0x31 .ok (readLaneData s n)) ∧
    (∀ v, v < 65536 →
      (∀ x, s.register.find v = some x → answers (.readVisit l tag (be2 v)) 0x32 .ok x.bytes) ∧
      (s.register.find v = none → answers (.readVisit l tag (be2 v)) 0x32 .noSuchVisit [])) ∧
    (∀ a b, a ≤ 95 → 1 ≤ b → b ≤ 8 →
      answers (.listVisits l tag (be1 a ++ be1 b)) 0x33 .ok (listVisitsData s a b)) ∧
    (∀ n, n < 4294967296 →
      (n = 0 → answers (.readTicket l tag (be4 n)) 0x34 .ok (journalSummary s)) ∧
      (∀ t, n ≠ 0 → s.journal.records.find? (fun t => t.number == n) = some t →
        answers (.readTicket l tag (be4 n)) 0x34 .ok (journalSummary s ++ t.record61)) ∧
      (n ≠ 0 → (∀ t ∈ s.journal.records, t.number ≠ n) →
        answers (.readTicket l tag (be4 n)) 0x34 .notFound [])) ∧
    (∀ i : SlotId,
      (∀ t, (s.jlink l).slot i = some t →
        answers (.slotRead l tag (be1 i.code)) 0x38 .ok (s.slotPairBytes l ++ t.record61)) ∧
      ((s.jlink l).slot i = none → answers (.slotRead l tag (be1 i.code)) 0x38 .notOwned [])) ∧
    (∀ (i : Fin 256) (q : List Byte), q.length = 12 →
      answers (.tareRead l tag (be1 0 ++ be1 i.val ++ q)) 0x22 .ok (tareByIndexData s i)) ∧
    (∀ (b : Byte) (q : List Byte) (p : Plate), q.length = 12 → plate? q = some p →
      (∀ i e, s.store.lookup p = some (i, e) →
        answers (.tareRead l tag (be1 1 ++ [b] ++ q)) 0x22 .ok (tareByPlateData s i e)) ∧
      (s.store.lookup p = none → answers (.tareRead l tag (be1 1 ++ [b] ++ q)) 0x22 .notFound [])) ∧
    ∀ (i : SetupIndex) (calen : Bool),
      answers (.setupRead l tag (be1 i.number) calen) 0x24 .ok (setupReadData s i calen)

/-! ### Slots, subscriptions and roles -/

/-- R169, R166, R167: SLOT_RETURN is refused NOT_OWNED for a PART-owned slot and OUT_OF_ORDER while the other slot holds
the older record; taken, it gives the slot back and answers with the number returned and the pair's status. A halted
pair, a cursor at the head or the role NONE is followed by no fill; where the other slot stays LINK-owned and a record
waits, the slot given back takes that record, told as TICKET to the link. -/
def Obligations.SlotReturnGivesBack : Prop :=
  ∀ (s : State) (l : LinkId) (tag : Byte) (i : SlotId), s.ready l →
    let k := s.jlink l
    ∃ t, exec (.slotReturn l tag (be1 i.code)) s = .next t ∧
      (k.slot i = none → t.replied l tag 0x39 .notOwned [] ∧ s.onlyLink t l) ∧
      ((k.slot i).isSome = true → (k.slot i.other).isSome = true → k.next ≠ i →
        t.replied l tag 0x39 .outOfOrder [] ∧ s.onlyLink t l) ∧
      (∀ r, k.slot i = some r → (k.slot i.other = none ∨ k.next = i) →
        t.replied l tag 0x39 .ok (be4 r.number ++ slotStatus t l) ∧
        t.journal.records = s.journal.records ∧ t.journal.counter = s.journal.counter ∧
        (∀ m, m ≠ l → t.jlink m = s.jlink m) ∧
        (k.halt = true ∨ k.cursor = .head ∨ k.role = .none →
          t.jlink l = { k.setSlot i none with slotCount := k.slotCount - 1 }) ∧
        (∀ n w rest, k.halt = false → k.role ≠ .none → k.next = i → (k.slot i.other).isSome = true →
          k.cursor = .record n → recordsFrom s.journal.records n = w :: rest →
          (t.jlink l).slot i = some w ∧ (t.jlink l).next = i.other ∧ (t.jlink l).gap = 0 ∧
          (t.jlink l).slotCount = k.slotCount - 1 + 1 ∧
          (t.jlink l).cursor = (match rest with | [] => .head | x :: _ => .record x.number) ∧
          (s.link l).told (t.link l) (.ticket i w.number)))

/-- R170, R166, R167: SLOT_HALT sets HALT and SLOT_RESUME clears it, each answered OK with the pair's status; the resume
judges the fills, so a PART-owned next-fill slot takes the record at the cursor, told as TICKET to the link. -/
def Obligations.HaltAndResumeSetFlag : Prop :=
  ∀ (s : State) (l : LinkId) (tag : Byte), s.ready l →
    (∃ t, exec (.slotHalt l tag []) s = .next t ∧ t.replied l tag 0x3A .ok (slotStatus t l) ∧
      t = (s.setJlink l { s.jlink l with halt := true }).setLink l (t.link l)) ∧
    ∃ t, exec (.slotResume l tag []) s = .next t ∧ t.replied l tag 0x3B .ok (slotStatus t l) ∧
      (t.jlink l).halt = false ∧ t.journal.records = s.journal.records ∧
      (∀ m, m ≠ l → t.jlink m = s.jlink m) ∧
      ((s.jlink l).role = .none ∨ (s.jlink l).cursor = .head ∨ ((s.jlink l).slot (s.jlink l).next).isSome = true →
        t.jlink l = { s.jlink l with halt := false }) ∧
      ∀ n w rest, (s.jlink l).role ≠ .none → (s.jlink l).slot (s.jlink l).next = none →
        (s.jlink l).cursor = .record n → recordsFrom s.journal.records n = w :: rest →
        (t.jlink l).slot (s.jlink l).next = some w ∧
        (s.link l).told (t.link l) (.ticket (s.jlink l).next w.number)

/-- R175: SET_SUBSCRIPTION replaces the mask of its own link whole and is answered OK with the new mask, for every role;
a value with bit 7 set is BAD_REQUEST; notices already queued stay; the mask outlives a loss of supply; later offers are
judged against the new mask, TICKET and OVERRUN having no position in it. -/
def Obligations.SubscriptionReplacesMask : Prop :=
  ∀ (s : State) (l : LinkId) (tag : Byte) (m : BitVec 8), s.ready l →
    ∃ t, exec (.setSubscription l tag [m]) s = .next t ∧ s.onlyLink t l ∧
      (t.link l).queue = (s.link l).queue ∧
      (∀ u, exec .mainSupplyLoss t = .next u ∨ exec .resetPinAssert t = .next u → (u.link l).mask = (t.link l).mask) ∧
      (m.getLsbD 7 = true → t.replied l tag 0x3C .badRequest [] ∧ (t.link l).mask = (s.link l).mask) ∧
      (m.getLsbD 7 = false → t.replied l tag 0x3C .ok [m] ∧ (t.link l).mask = m ∧
        (∀ n b, n.maskBit = some b → ((t.link l).takes n = true ↔ m.getLsbD b = true)) ∧
        (∀ i r, (t.link l).takes (.ticket i r) = true ∧ (Notice.ticket i r).maskBit = none) ∧
        Notice.overrun.maskBit = none)

/-- R154, R171, R158: SET_JOURNAL_ROLE gives the link its role with both slots PART-owned, the cursor at the head (absent
for NONE), slot count and gap tally 0 and HALT kept, answered OK with the cursor; HOLD is refused to a KIOSK link. -/
def Obligations.JournalRoleTakesHead : Prop :=
  ∀ (s : State) (l : LinkId) (tag : Byte) (r : JournalRole), s.ready l →
    ∃ t, exec (.setJournalRole l tag (be1 r.code)) s = .next t ∧
      ((s.link l).role = .kiosk → r = .hold → t.replied l tag 0x3D .notPermitted [] ∧ s.onlyLink t l) ∧
      (¬((s.link l).role = .kiosk ∧ r = .hold) →
        t.replied l tag 0x3D .ok
          (if r = .none then be1 0 ++ be4 0 else be1 1 ++ be4 (s.journal.counter.getD 0)) ∧
        t.jlink l =
          ⟨r, if r = .none then .absent else .head, 0, 0, none, none, .even, (s.jlink l).halt⟩ ∧
        (∀ m, m ≠ l → t.jlink m = s.jlink m) ∧ t.journal.records = s.journal.records ∧
        t.journal.counter = s.journal.counter ∧
        (t.journal.low = true ↔
          512 - (t.journal.held : Int) - (s.register.unreleased : Int) ≤ 16))

/-! ### Links -/

/-- R184, R180, R185, R179, R203: a bad frame or a gap discards the frame in reception; a lead byte starts one while
HUNTING and is data inside one; a frame sent to its end is followed by the first reply waiting, else by the oldest
notice, whose place OVERRUN takes while the loss is marked; the end of a request's own reply ends the request; a RESTART
request is answered ACCEPTED, and after that reply nothing is started and the restart is due. -/
def Obligations.LineEventsDriveLink : Prop :=
  (∀ (s : State) (l : LinkId) (why : FrameFault), s.taking = true → (s.link l).role ≠ .disabled →
    exec (.badFrame l why) s = .next (s.setLink l { s.link l with rx := none }) ∧
    exec (.frameGapTimeout l) s = .next (s.setLink l { s.link l with rx := none }) ∧
    ((s.link l).rx = none →
      exec (.frameLeadByte l) s = .next (s.setLink l { s.link l with rx := some [0xC3] })) ∧
    ∀ bs, (s.link l).rx = some bs → bs.length < 204 →
      exec (.frameLeadByte l) s = .next (s.setLink l { s.link l with rx := some (bs ++ [0xC3]) })) ∧
  (∀ (s : State) (l : LinkId) (x : TxFrame), s.taking = true → (s.link l).role ≠ .disabled →
    (s.link l).tx = some x → (∀ r, (s.link l).request = some r → r.answered = true) →
    let k := s.link l
    ∃ t, exec (.frameSent l) s = .next t ∧
      (∀ r, x = .reply r → r.code = 0x2C → r.status = .accepted →
        t.power.restartDue = true ∧ (t.link l).tx = none ∧ (t.link l).request = none ∧
        (t.link l).queue = k.queue ∧ (t.link l).replies = k.replies) ∧
      ((∀ r, x = .reply r → ¬(r.code = 0x2C ∧ r.status = .accepted)) →
        s.onlyLink t l ∧
        (∀ r rest, k.replies = r :: rest →
          (t.link l).tx = some (.reply r) ∧ (t.link l).replies = rest ∧ (t.link l).queue = k.queue) ∧
        (∀ n rest, k.replies = [] → k.queue = n :: rest → (t.link l).tx = some (.notice n) ∧
          (t.link l).queue = (if k.overrun then rest ++ [.overrun] else rest) ∧ (t.link l).overrun = false) ∧
        (k.replies = [] → k.queue = [] → (t.link l).tx = none) ∧
        (∀ r, x = .reply r → r.status ≠ .busy → (t.link l).request = none) ∧
        ((∀ r, x = .reply r → r.status = .busy) → (t.link l).request = k.request))) ∧
  ∀ (s : State) (l : LinkId) (tag : Byte), s.ready l → (s.link l).role = .office →
    ∃ t, exec (.restart l tag []) s = .next t ∧ t.replied l tag 0x2C .accepted [] ∧ s.onlyLink t l

/-- R183, R184, R190: the bytes of a frame whose CRC matches are received as the command its kind byte names, with its tag
and payload; a kind that is no request code gives UNKNOWN_KIND. R185, R186, R189: every frame is answered by the state of
its link: STARTING during start-up; BUSY, once, while a request is pending; BAD_REQUEST for a kind that is no request code;
NOT_PERMITTED, if not BAD_REQUEST, for a request outside the role's permissions (R189); and a request that is refused
carries no data and changes nothing but its link (the CALEN pin is read with it, log entry 5). -/
def Obligations.RefusalsChangeNothing : Prop :=
  (∀ (l : LinkId) (kind tag : Byte) (p : List Byte) (calen : Bool), p.length ≤ 198 →
    received l calen (frameBytes kind tag p) = some (commandOf l kind tag p calen) ∧
    requestOf (commandOf l kind tag p calen) = some (l, kind, tag) ∧ (commandOf l kind tag p calen).payload? = some p ∧
    (kind ∉ requestCodes ↔ commandOf l kind tag p calen = .unknownKind l kind tag p) ∧
    (commandOf l kind tag p calen).wellFormed = true) ∧
  ∀ (i : Instr) (l : LinkId) (code tag : Byte) (s : State), requestOf i = some (l, code, tag) → s.taking = true →
    (s.link l).role ≠ .disabled →
    ∃ t, exec i s = .next t ∧
      ((s.link l).request = none → s.power.phase = .starting →
        t.replied l tag code .starting [] ∧ s.onlyLinkAndPin t l) ∧
      ((s.link l).request = none → s.power.phase = .running → ∃ st data, t.replied l tag code st data ∧
        (st ≠ .ok → st ≠ .accepted → data = [] ∧ s.onlyLinkAndPin t l) ∧
        (permits (s.link l).role code = false → st = .notPermitted ∨ st = .badRequest) ∧
        (∀ kind p, i = .unknownKind l kind tag p → st = .badRequest)) ∧
      ((s.link l).request.isSome = true → s.onlyLinkAndPin t l ∧ (t.link l).request = (s.link l).request ∧
        ((∀ r ∈ (s.link l).replies, r.status ≠ .busy) →
          (⟨tag, code, .busy, []⟩ ∈ (t.link l).replies ∨ (t.link l).tx = some (.reply ⟨tag, code, .busy, []⟩))) ∧
        ((∃ r ∈ (s.link l).replies, r.status = .busy) → t.link l = { s.link l with rx := none }))

/-- R174, R177, R178: what a queue does with an offered notice while its transmitter sends: not subscribed, nothing; a word
of a lane that has one queued takes its place; with room it joins at the newest end; else it is lost and the loss is
marked unless the newest notice is OVERRUN. -/
def Obligations.QueueTakesMergesOrMarksLoss : Prop :=
  ∀ (k : LinkState) (n : Notice), k.tx.isSome = true →
    (k.takes n = false → k.offer n = k) ∧
    (k.takes n = true →
      (∀ w a b w', n = .laneStatus w → k.queue = a ++ .laneStatus w' :: b → w'.lane = w.lane →
        (∀ x ∈ a, x.isWordOf w.lane = false) →
        k.offer n = { k with queue := a ++ .laneStatus w :: b }) ∧
      ((∀ w, n = .laneStatus w → ∀ x ∈ k.queue, x.isWordOf w.lane = false) →
        (k.queue.length < 24 → k.offer n = { k with queue := k.queue ++ [n] }) ∧
        (24 ≤ k.queue.length → k.queue.getLast? ≠ some .overrun → k.offer n = { k with overrun := true }) ∧
        (24 ≤ k.queue.length → k.queue.getLast? = some .overrun → k.offer n = k)))

/-! ### Supplies, resets and start-up -/

/-- R200 to R204, R182: the loss of the main supply and the reset input stop the part with every output inactive and no
write in flight, the backup domain kept; R131, the abandoned write leaves the store as it was, or tears the one place it
was to change, where what it was to lay down does not stand already; a failed backup supply leaves the valid word cleared while the main supply is
away; a start-up begins with the straps read, its kind recorded and nothing checked, POWER_ON setting check-pending. Two
clauses are the model's choice: R201 calls the contents of the domain untrustworthy once its supply has failed, and the model
leaves them as they were until the check clears them (log entry 17); a POWER_ON with the main supply already present, which no
run of supplies shows, acts as any POWER_ON (log entry 23). -/
def Obligations.ResetsStopAndBegin : Prop :=
  ∀ (s : State) (straps : Straps),
    (s.power.main = true → ∃ t, exec .mainSupplyLoss s = .next t ∧ t.power.main = false ∧ t.taking = false ∧
      t.outputsOff ∧ t.store.engine = none ∧ s.abandonsWrite t ∧ s.keepsBackup t ∧
      t.power.checkPending = s.power.checkPending) ∧
    (∃ t, exec .resetPinAssert s = .next t ∧ t.power.resetPin = true ∧ t.taking = false ∧ t.outputsOff ∧
      t.store.engine = none ∧ s.abandonsWrite t ∧ s.keepsBackup t ∧ t.power.checkPending = s.power.checkPending) ∧
    (s.power.main = false →
      exec .backupSupplyFail s = .next { s with power := { s.power with backupValid := false } }) ∧
    (s.power.main = true → exec .backupSupplyFail s = .next s) ∧
    (s.power.resetPin = false → ∃ t, exec (.powerOn straps) s = .next t ∧ t.power.main = true ∧
      t.power.phase = .starting ∧ t.power.checkPending = true ∧ t.power.lastKind = .powerOn ∧
      t.power.lastCheck = .notChecked ∧ t.outputsOff ∧ s.keepsBackup t ∧
      ∀ l, (t.link l).role = roleOf (straps.get l).role ∧ (t.link l).speed = (straps.get l).speed ∧
        (t.link l).rx = none ∧ (t.link l).request = none ∧ (t.link l).replies = [] ∧ (t.link l).tx = none ∧
        (t.link l).queue = [] ∧ (t.link l).overrun = false) ∧
    (s.power.resetPin = true → s.power.main = true →
      ∃ t, exec (.resetPinRelease straps) s = .next t ∧ t.power.resetPin = false ∧ t.power.phase = .starting ∧
        t.power.checkPending = s.power.checkPending ∧ t.power.lastKind = .resetPin ∧
        t.power.lastCheck = .notChecked ∧ t.outputsOff ∧ s.keepsBackup t ∧
        ∀ l, (t.link l).role = roleOf (straps.get l).role ∧ (t.link l).speed = (straps.get l).speed ∧
          (t.link l).rx = none ∧ (t.link l).request = none ∧ (t.link l).tx = none ∧ (t.link l).queue = [])

/-- R142, R201, R204, R205, R207, R128, R50, R87: the end of the scan ends start-up: entry statuses and records in effect
follow from what stands in the store; a backup domain found not valid is cleared; one kept keeps its counters, mode,
records and clock, every visit seen by the restart and none left WEIGH_OUT; the decks choose their state and every lane
starts its resolution. R143: every tare index and setup record found torn is told "entry lost". In a kept domain: R128, a
WEIGH_OUT visit is ON_SITE, unbound, and it and a WEIGH_IN visit with its capture mark bear the failure ABORTED; R162, R163,
R166, R172, a link's journal role is adjusted to its straps, its cursor moved back by its slot count, no further than the
oldest record, its slots emptied and then filled again from there with up to two records, told TICKET. -/
def Obligations.ScanDoneEndsStartUp : Prop :=
  ∀ s : State, s.taking = true → s.power.phase = .starting →
    ∃ t, exec .storeScanDone s = .next t ∧ t.power.phase = .running ∧ t.power.backupValid =
        (s.power.checkPending || s.power.backupValid) ∧ t.power.checkPending = false ∧
      (∀ i, (t.store.tare.get i).status = (match (s.store.tare.get i).cell with
        | .content _ => .valid | .mismatch => .invalid | .blank => .empty | .emptyMarker => .empty)) ∧
      (∀ d, (t.deck d).setup = (match (s.store.deck.get d).cell with
        | .content u => u | .blank => DeckSetup.default | .mismatch => DeckSetup.default) ∧
        ((t.deck d).setupBad = true ↔ (s.store.deck.get d).cell = .mismatch)) ∧
      t.period = some (1250 * 2 ^ t.store.yardSetup.p) ∧ t.store.engine = none ∧ t.store.lostList = [] ∧
      (∀ n, (t.lane n).resolution = some (t.lane n).setup.loopFilter ∧
        (t.lane n).clearLoop.occupied = ((s.lane n).clearLoop.faultIn || (s.lane n).clearLoop.level) ∧
        ((t.lane n).settle.isSome = true ↔ (t.lane n).clearLoop.occupied = false)) ∧
      (∀ i, (s.store.tare.get i).cell = .mismatch → t.tells t (.storeLost .tare i.val)) ∧
      (∀ c, (s.store.cal.get c).cell = .mismatch → t.tells t (.storeLost .setup c.val)) ∧
      (∀ d, (s.store.deck.get d).cell = .mismatch → t.tells t (.storeLost .setup (16 + d.val))) ∧
      (∀ n, (s.store.lane.get n).cell = .mismatch → t.tells t (.storeLost .setup (20 + n.val))) ∧
      (s.store.yard.cell = .mismatch → t.tells t (.storeLost .setup 24)) ∧
      (∀ d, (t.deck d).state =
        (if (t.deck d).setupBad = true ∨ t.members d = [] then .unused
         else if (t.deck d).service then .service
         else if t.register.mode = .closed then .sleep else .warming)) ∧
      (s.power.checkPending = true → s.power.backupValid = false →
        t.clock = ⟨0, false, 0⟩ ∧ t.register = ⟨[], 1, #v[none, none, none, none], .closed⟩ ∧
        t.journal.records = [] ∧ t.journal.counter = none ∧
        (∀ l, (t.jlink l).role = .none ∧ (t.jlink l).cursor = .absent ∧ (t.jlink l).slotCount = 0 ∧
          (t.link l).mask = defaultMask (s.link l).role) ∧
        (∀ d, (t.deck d).zd = 0 ∧ (t.deck d).service = false) ∧
        t.power.lastKind = .powerOn ∧ t.power.lastCheck = .cleared) ∧
      (s.power.checkPending = false ∨ s.power.backupValid = true →
        t.clock = s.clock ∧ t.register.mode = s.register.mode ∧ t.register.counter = s.register.counter ∧
        t.register.visits.map (·.number) = s.register.visits.map (·.number) ∧
        (∀ v ∈ t.register.visits, v.flags.restartSeen = true ∧ v.capMark = false ∧ v.state ≠ .weighOut) ∧
        t.journal.records = s.journal.records ∧ t.journal.counter = s.journal.counter ∧
        (∀ l, (t.link l).mask = (s.link l).mask) ∧
        (∀ (i : Nat) (v : Visit), s.register.visits[i]? = some v → ∃ x, t.register.visits[i]? = some x ∧
          x.state = (if v.state = .weighOut then .onSite else v.state) ∧
          x.failure =
            (if v.state = .weighOut ∨ v.state = .weighIn ∧ v.capMark = true then some .aborted else v.failure) ∧
          x.exitLane = (if v.state = .weighOut then none else v.exitLane) ∧
          x = { v with
            state := x.state, failure := x.failure, exitLane := x.exitLane, capMark := false
            flags := { v.flags with restartSeen := true, overstay := x.flags.overstay } }) ∧
        (∀ n v, s.bound n = some v → t.bound n =
          (if (∃ x, s.register.find v = some x ∧ x.state = .weighOut) then none else some v)) ∧
        ∀ l, (t.jlink l).role = (s.jlink l).roleUnder (s.link l).role ∧ (t.jlink l).halt = false ∧
          (t.jlink l).gap = 0 ∧
          ((s.link l).role = .disabled → (t.jlink l).cursor = .absent ∧ (t.jlink l).slotCount = 0 ∧
            (t.jlink l).even = none ∧ (t.jlink l).odd = none) ∧
          (s.journal.sequenced → (t.jlink l).role ≠ .none → (s.jlink l).cursor ≠ .absent →
            let waiting := s.journal.records.drop
              ((s.jlink l).cursor.place s.journal.records - (s.jlink l).slotCount)
            (t.jlink l).even = waiting[0]? ∧ (t.jlink l).odd = waiting[1]? ∧
            (t.jlink l).slotCount = min 2 waiting.length ∧
            (t.jlink l).cursor = (match waiting[2]? with | some r => .record r.number | none => .head) ∧
            (∀ r, waiting[0]? = some r → (s.link l).told (t.link l) (.ticket .even r.number)) ∧
            ∀ r, waiting[1]? = some r → (s.link l).told (t.link l) (.ticket .odd r.number)))

/-- R203, R204, R144, R128: a RESTART whose ACCEPTED reply has been sent begins and ends in one step: no scan and no backup
check, the records in effect kept with their SETUP_BAD, but that a lane bound to a visit has the direction of the visit's
state, an abandoned tare write's index INVALID, an abandoned setup write's record SUSPECT. -/
def Obligations.RestartKeepsRecordsInEffect : Prop :=
  ∀ (s : State) (straps : Straps), s.up = true → s.power.restartDue = true →
    ∃ t, exec (.restartBegin straps) s = .next t ∧ t.power.phase = .running ∧ t.power.restartDue = false ∧
      t.power.lastKind = .restart ∧ t.power.lastCheck = .notChecked ∧ t.clock = s.clock ∧
      t.store.engine = none ∧ t.store.yardSetup = s.store.yardSetup ∧
      (∀ c, (t.chan c).cal = (s.chan c).cal ∧ (t.chan c).raw = none ∧ (t.chan c).lost = false) ∧
      (∀ d, (t.deck d).setup = (s.deck d).setup ∧ (t.deck d).setupBad = (s.deck d).setupBad ∧
        (t.unit d) = ⟨none, none⟩ ∧ (t.deck d).window = [] ∧ (t.deck d).service = (s.deck d).service) ∧
      t.store.yardBad = s.store.yardBad ∧
      (∀ n, (t.lane n).setup = { (s.lane n).setup with direction := (t.lane n).setup.direction } ∧
        (t.lane n).setupBad = (s.lane n).setupBad ∧
        (t.bound n = none → (t.lane n).setup.direction = (s.lane n).setup.direction) ∧
        ∀ v x, t.bound n = some v → t.register.find v = some x →
          (t.lane n).setup.direction = (if x.state = .released then .exit else .entry)) ∧
      (∀ n, (t.lane n).barrier = .unresolved ∧ (t.lane n).cause = none ∧ (t.lane n).raiseOut = false ∧
        (t.lane n).lowerOut = false ∧ (t.lane n).goOut = false) ∧
      t.register.mode = s.register.mode ∧ t.register.counter = s.register.counter ∧
      t.register.visits.map (·.number) = s.register.visits.map (·.number) ∧
      (∀ v ∈ t.register.visits, v.flags.restartSeen = true ∧ v.state ≠ .weighOut) ∧
      t.journal.records = s.journal.records ∧ t.journal.counter = s.journal.counter ∧
      (s.store.engine = none → t.store = { s.store with lostList := [] }) ∧
      (∀ g i e, s.store.engine = some g → g.write = .tare i e →
        (t.store.tare.get i).status = .invalid ∧ ∀ j, j ≠ i → t.store.tare.get j = s.store.tare.get j) ∧
      ∀ g d u, s.store.engine = some g → g.write = .deck d u → (t.store.deck.get d).status = .suspect

/-! ### What every step keeps -/

/-- R77, R85: in every step, RAISE, LOWER and GO stay what the barrier state and cause make them, never RAISE and LOWER
together, and LOWER is never active while the CLEAR loop reads occupied. -/
def Obligations.StepsKeepBarriersSafe : Prop :=
  (∀ s t : State, s.barriersSafe → step s = .next t → t.barriersSafe) ∧
    ∀ s : State, s.barriersSafe → ∀ n,
      ¬((s.lane n).raiseOut = true ∧ (s.lane n).lowerOut = true) ∧
      ((s.lane n).clearLoop.occupied = true → (s.lane n).lowerOut = false)

/-- R173, R177, R178: every step keeps each queue at most 24 notices long, with at most one LANE_STATUS for a lane. -/
def Obligations.StepsKeepQueuesBounded : Prop :=
  ∀ s t : State, (∀ l, (s.link l).bounded) → step s = .next t → ∀ l, (t.link l).bounded

/-- R94, R95, R98, R124: every step keeps the register at most 96 visits long with distinct numbers and registrations, each
lane bound to a visit of the register and each visit to at most one lane; and it keeps a CLOSING yard holding a visit. -/
def Obligations.StepsKeepRegisterSound : Prop :=
  (∀ s t : State, s.register.distinct → s.register.boundOnce → step s = .next t →
    t.register.distinct ∧ t.register.boundOnce) ∧
  ∀ s t : State, s.closingHolds → step s = .next t → t.closingHolds

/-- R145, R148, R150, R157: every step keeps the journal's records consecutively numbered up to the counter, at most 512 of
them, and the held records together with the visits not RELEASED within 512. -/
def Obligations.StepsKeepJournalWithinRing : Prop :=
  ∀ s t : State, s.journal.sequenced → s.register.distinct → s.withinHeadroom → step s = .next t →
    t.journal.sequenced ∧ t.withinHeadroom

/-- The properties that every step keeps hold right after reset. -/
def Obligations.ResetHasKeptProperties : Prop :=
  State.reset.barriersSafe ∧ (∀ l, (State.reset.link l).bounded) ∧ State.reset.register.distinct ∧
    State.reset.register.boundOnce ∧ State.reset.closingHolds ∧ State.reset.journal.sequenced ∧
    State.reset.withinHeadroom

/-! ### What commands leave alone -/

/-- The events of the yard (readings, periods, timers, loops, limits) leave the store, the clock, the supplies, the records
in effect, the straps, the masks and the links' traffic with their stations as they were; and all but a reading leave
the journal as it was, its LOW mark apart. R91: where each lane's latest status word carries the fields as they stand, it
does so after the event, and a word that has changed is told to every link. -/
def Obligations.YardEventsLeaveRestAlone : Prop :=
  ∀ (s t : State) (i : Instr), exec i s = .next t →
    (∀ c raw ok, i = .cellReading c raw ok →
      s.keepsFixed t ∧ (∀ l, (s.link l).sameTraffic (t.link l)) ∧ s.showsWords t) ∧
    ((i = .periodTimerExpiry ∨ (∃ d, i = .warmUpTimerExpiry d ∨ i = .idleTimerExpiry d ∨ i = .stableTimeoutExpiry d) ∨
      (∃ n lp, i = .loopDebounceExpiry n lp ∨ i = .detectorFaultAsserted n lp ∨ i = .detectorFaultCleared n lp) ∨
      (∃ n lp b, i = .loopLevelChange n lp b) ∨ (∃ n lm, i = .limitDebounceExpiry n lm) ∨
      (∃ n lm b, i = .limitInputChange n lm b) ∨
      (∃ n, i = .travelTimerExpiry n ∨ i = .settleTimerExpiry n ∨ i = .resolutionTimerExpiry n)) →
      s.keepsFixed t ∧ (∀ l, (s.link l).sameTraffic (t.link l)) ∧ s.showsWords t ∧
        t.journal = { s.journal with low := t.journal.low })

/-- The requests on visits, barriers and decks leave the store, the clock, the supplies, the records in effect, the straps
and the masks as they were, and the traffic of every other link; all but DEPART and VOID leave the journal, its LOW mark
apart. R91: the status words stay those of the state, and a changed word is told to every link. -/
def Obligations.YardRequestsLeaveRestAlone : Prop :=
  ∀ (s t : State) (l : LinkId) (tag : Byte) (p : List Byte) (i : Instr), exec i s = .next t →
    (i = .depart l tag p ∨ i = .voidVisit l tag p →
      s.keepsFixed t ∧ s.showsWords t ∧ ∀ m, m ≠ l → (s.link m).sameTraffic (t.link m)) ∧
    (i = .admitVehicle l tag p ∨ i = .recapture l tag p ∨ i = .cancel l tag p ∨ i = .reraise l tag p ∨
      i = .clearLane l tag p ∨ i = .reclassify l tag p ∨ i = .manualRaise l tag p ∨ i = .lowerReset l tag p ∨
      i = .spotWeigh l tag p ∨ i = .wake l tag p ∨ i = .serviceEnter l tag p ∨ i = .serviceLeave l tag p ∨
      i = .setYardMode l tag p →
      s.keepsFixed t ∧ s.showsWords t ∧ (∀ m, m ≠ l → (s.link m).sameTraffic (t.link m)) ∧
      t.journal = { s.journal with low := t.journal.low })
end

