-- ==== Sys2Proof/Laws/State.lean ====
section
/-! SUPPORT. Reading back one element of a bank, and one lemma for each field and each update of State. -/

namespace Sys2Proof.Machine

/-! ### A bank with one element replaced -/

@[simp] theorem get_setAt_self {α : Type} {n : Nat} (v : Vector α n) (i : Fin n) (a : α) : (setAt v i a).get i = a := by
  change (v.set i.val a i.isLt)[i.val] = a
  simp

theorem get_setAt_ne {α : Type} {n : Nat} (v : Vector α n) {i j : Fin n} (a : α) (h : j ≠ i) :
    (setAt v i a).get j = v.get j := by
  have h' : i.val ≠ j.val := fun e => h (Fin.ext e.symm)
  change (v.set i.val a i.isLt)[j.val] = v[j.val]
  simp [h']

theorem get_setAt {α : Type} {n : Nat} (v : Vector α n) (i j : Fin n) (a : α) :
    (setAt v i a).get j = if j = i then a else v.get j := by
  by_cases h : j = i
  · simp [h]
  · simp [h, get_setAt_ne v a h]

@[simp] theorem setAt_setAt {α : Type} {n : Nat} (v : Vector α n) (i : Fin n) (a b : α) :
    setAt (setAt v i a) i b = setAt v i b := by
  simp [setAt]

@[simp] theorem setAt_get {α : Type} {n : Nat} (v : Vector α n) (i : Fin n) : setAt v i (v.get i) = v := by
  simp [setAt, Vector.get]

/-- A bank mapped, read at one place. -/
@[simp] theorem get_map {α β : Type} {n : Nat} (v : Vector α n) (f : α → β) (i : Fin n) :
    (v.map f).get i = f (v.get i) := by
  simp [Vector.get]

@[simp] theorem get_ofFn {α : Type} {n : Nat} (f : Fin n → α) (i : Fin n) : (Vector.ofFn f).get i = f i := by
  change (Vector.ofFn f)[i.val] = f i
  simp

@[simp] theorem get_replicate {α : Type} {n : Nat} (a : α) (i : Fin n) : (Vector.replicate n a).get i = a := by
  simp [Vector.get]

/-- Two banks are the same if every place is. -/
theorem bank_ext {α : Type} {n : Nat} (v w : Vector α n) (h : ∀ i : Fin n, v.get i = w.get i) : v = w := by
  apply Vector.ext
  intro i hi
  simpa [Vector.get] using h ⟨i, hi⟩

/-! ### setChan -/

@[simp] theorem setChan_channels (s : State) (c : ChanId) (k : Channel) :
    (s.setChan c k).channels = setAt s.channels c k := rfl

@[simp] theorem setChan_period (s : State) (c : ChanId) (k : Channel) : (s.setChan c k).period = s.period := rfl

@[simp] theorem setChan_decks (s : State) (c : ChanId) (k : Channel) : (s.setChan c k).decks = s.decks := rfl

@[simp] theorem setChan_units (s : State) (c : ChanId) (k : Channel) : (s.setChan c k).units = s.units := rfl

@[simp] theorem setChan_lanes (s : State) (c : ChanId) (k : Channel) : (s.setChan c k).lanes = s.lanes := rfl

@[simp] theorem setChan_register (s : State) (c : ChanId) (k : Channel) : (s.setChan c k).register = s.register := rfl

@[simp] theorem setChan_store (s : State) (c : ChanId) (k : Channel) : (s.setChan c k).store = s.store := rfl

@[simp] theorem setChan_journal (s : State) (c : ChanId) (k : Channel) : (s.setChan c k).journal = s.journal := rfl

@[simp] theorem setChan_links (s : State) (c : ChanId) (k : Channel) : (s.setChan c k).links = s.links := rfl

@[simp] theorem setChan_clock (s : State) (c : ChanId) (k : Channel) : (s.setChan c k).clock = s.clock := rfl

@[simp] theorem setChan_power (s : State) (c : ChanId) (k : Channel) : (s.setChan c k).power = s.power := rfl

@[simp] theorem setChan_pending (s : State) (c : ChanId) (k : Channel) : (s.setChan c k).pending = s.pending := rfl

@[simp] theorem setChan_freeIndex (s : State) (c : ChanId) (k : Channel) : (s.setChan c k).freeIndex = s.freeIndex := rfl

@[simp] theorem setChan_chan_self (s : State) (c : ChanId) (k : Channel) : (s.setChan c k).chan c = k :=
  get_setAt_self _ _ _

theorem setChan_chan_ne (s : State) {c j : ChanId} (k : Channel) (h : j ≠ c) : (s.setChan c k).chan j = s.chan j :=
  get_setAt_ne _ _ h

@[simp] theorem setChan_deck (s : State) (c : ChanId) (k : Channel) (j : DeckId) : (s.setChan c k).deck j = s.deck j := rfl

@[simp] theorem setChan_unit (s : State) (c : ChanId) (k : Channel) (j : DeckId) : (s.setChan c k).unit j = s.unit j := rfl

@[simp] theorem setChan_lane (s : State) (c : ChanId) (k : Channel) (j : LaneId) : (s.setChan c k).lane j = s.lane j := rfl

@[simp] theorem setChan_link (s : State) (c : ChanId) (k : Channel) (j : LinkId) : (s.setChan c k).link j = s.link j := rfl

@[simp] theorem setChan_jlink (s : State) (c : ChanId) (k : Channel) (j : LinkId) : (s.setChan c k).jlink j = s.jlink j := rfl

@[simp] theorem setChan_bound (s : State) (c : ChanId) (k : Channel) (j : LaneId) : (s.setChan c k).bound j = s.bound j := rfl

@[simp] theorem setChan_setChan (s : State) (c : ChanId) (k m : Channel) : (s.setChan c k).setChan c m = s.setChan c m := by
  simp [State.setChan]

@[simp] theorem setChan_same (s : State) (c : ChanId) : s.setChan c (s.chan c) = s := by
  cases s; simp [State.setChan, State.chan]

/-! ### setDeck -/

@[simp] theorem setDeck_channels (s : State) (d : DeckId) (k : Deck) : (s.setDeck d k).channels = s.channels := rfl

@[simp] theorem setDeck_period (s : State) (d : DeckId) (k : Deck) : (s.setDeck d k).period = s.period := rfl

@[simp] theorem setDeck_decks (s : State) (d : DeckId) (k : Deck) :
    (s.setDeck d k).decks = setAt s.decks d k := rfl

@[simp] theorem setDeck_units (s : State) (d : DeckId) (k : Deck) : (s.setDeck d k).units = s.units := rfl

@[simp] theorem setDeck_lanes (s : State) (d : DeckId) (k : Deck) : (s.setDeck d k).lanes = s.lanes := rfl

@[simp] theorem setDeck_register (s : State) (d : DeckId) (k : Deck) : (s.setDeck d k).register = s.register := rfl

@[simp] theorem setDeck_store (s : State) (d : DeckId) (k : Deck) : (s.setDeck d k).store = s.store := rfl

@[simp] theorem setDeck_journal (s : State) (d : DeckId) (k : Deck) : (s.setDeck d k).journal = s.journal := rfl

@[simp] theorem setDeck_links (s : State) (d : DeckId) (k : Deck) : (s.setDeck d k).links = s.links := rfl

@[simp] theorem setDeck_clock (s : State) (d : DeckId) (k : Deck) : (s.setDeck d k).clock = s.clock := rfl

@[simp] theorem setDeck_power (s : State) (d : DeckId) (k : Deck) : (s.setDeck d k).power = s.power := rfl

@[simp] theorem setDeck_pending (s : State) (d : DeckId) (k : Deck) : (s.setDeck d k).pending = s.pending := rfl

@[simp] theorem setDeck_freeIndex (s : State) (d : DeckId) (k : Deck) : (s.setDeck d k).freeIndex = s.freeIndex := rfl

@[simp] theorem setDeck_chan (s : State) (d : DeckId) (k : Deck) (j : ChanId) : (s.setDeck d k).chan j = s.chan j := rfl

@[simp] theorem setDeck_deck_self (s : State) (d : DeckId) (k : Deck) : (s.setDeck d k).deck d = k :=
  get_setAt_self _ _ _

theorem setDeck_deck_ne (s : State) {d j : DeckId} (k : Deck) (h : j ≠ d) : (s.setDeck d k).deck j = s.deck j :=
  get_setAt_ne _ _ h

@[simp] theorem setDeck_unit (s : State) (d : DeckId) (k : Deck) (j : DeckId) : (s.setDeck d k).unit j = s.unit j := rfl

@[simp] theorem setDeck_lane (s : State) (d : DeckId) (k : Deck) (j : LaneId) : (s.setDeck d k).lane j = s.lane j := rfl

@[simp] theorem setDeck_link (s : State) (d : DeckId) (k : Deck) (j : LinkId) : (s.setDeck d k).link j = s.link j := rfl

@[simp] theorem setDeck_jlink (s : State) (d : DeckId) (k : Deck) (j : LinkId) : (s.setDeck d k).jlink j = s.jlink j := rfl

@[simp] theorem setDeck_bound (s : State) (d : DeckId) (k : Deck) (j : LaneId) : (s.setDeck d k).bound j = s.bound j := rfl

@[simp] theorem setDeck_setDeck (s : State) (d : DeckId) (k m : Deck) : (s.setDeck d k).setDeck d m = s.setDeck d m := by
  simp [State.setDeck]

@[simp] theorem setDeck_same (s : State) (d : DeckId) : s.setDeck d (s.deck d) = s := by
  cases s; simp [State.setDeck, State.deck]

/-! ### setUnit -/

@[simp] theorem setUnit_channels (s : State) (d : DeckId) (k : CaptureUnit) : (s.setUnit d k).channels = s.channels := rfl

@[simp] theorem setUnit_period (s : State) (d : DeckId) (k : CaptureUnit) : (s.setUnit d k).period = s.period := rfl

@[simp] theorem setUnit_decks (s : State) (d : DeckId) (k : CaptureUnit) : (s.setUnit d k).decks = s.decks := rfl

@[simp] theorem setUnit_units (s : State) (d : DeckId) (k : CaptureUnit) :
    (s.setUnit d k).units = setAt s.units d k := rfl

@[simp] theorem setUnit_lanes (s : State) (d : DeckId) (k : CaptureUnit) : (s.setUnit d k).lanes = s.lanes := rfl

@[simp] theorem setUnit_register (s : State) (d : DeckId) (k : CaptureUnit) : (s.setUnit d k).register = s.register := rfl

@[simp] theorem setUnit_store (s : State) (d : DeckId) (k : CaptureUnit) : (s.setUnit d k).store = s.store := rfl

@[simp] theorem setUnit_journal (s : State) (d : DeckId) (k : CaptureUnit) : (s.setUnit d k).journal = s.journal := rfl

@[simp] theorem setUnit_links (s : State) (d : DeckId) (k : CaptureUnit) : (s.setUnit d k).links = s.links := rfl

@[simp] theorem setUnit_clock (s : State) (d : DeckId) (k : CaptureUnit) : (s.setUnit d k).clock = s.clock := rfl

@[simp] theorem setUnit_power (s : State) (d : DeckId) (k : CaptureUnit) : (s.setUnit d k).power = s.power := rfl

@[simp] theorem setUnit_pending (s : State) (d : DeckId) (k : CaptureUnit) : (s.setUnit d k).pending = s.pending := rfl

@[simp] theorem setUnit_freeIndex (s : State) (d : DeckId) (k : CaptureUnit) : (s.setUnit d k).freeIndex = s.freeIndex := rfl

@[simp] theorem setUnit_chan (s : State) (d : DeckId) (k : CaptureUnit) (j : ChanId) : (s.setUnit d k).chan j = s.chan j := rfl

@[simp] theorem setUnit_deck (s : State) (d : DeckId) (k : CaptureUnit) (j : DeckId) : (s.setUnit d k).deck j = s.deck j := rfl

@[simp] theorem setUnit_unit_self (s : State) (d : DeckId) (k : CaptureUnit) : (s.setUnit d k).unit d = k :=
  get_setAt_self _ _ _

theorem setUnit_unit_ne (s : State) {d j : DeckId} (k : CaptureUnit) (h : j ≠ d) : (s.setUnit d k).unit j = s.unit j :=
  get_setAt_ne _ _ h

@[simp] theorem setUnit_lane (s : State) (d : DeckId) (k : CaptureUnit) (j : LaneId) : (s.setUnit d k).lane j = s.lane j := rfl

@[simp] theorem setUnit_link (s : State) (d : DeckId) (k : CaptureUnit) (j : LinkId) : (s.setUnit d k).link j = s.link j := rfl

@[simp] theorem setUnit_jlink (s : State) (d : DeckId) (k : CaptureUnit) (j : LinkId) : (s.setUnit d k).jlink j = s.jlink j := rfl

@[simp] theorem setUnit_bound (s : State) (d : DeckId) (k : CaptureUnit) (j : LaneId) : (s.setUnit d k).bound j = s.bound j := rfl

@[simp] theorem setUnit_setUnit (s : State) (d : DeckId) (k m : CaptureUnit) : (s.setUnit d k).setUnit d m = s.setUnit d m := by
  simp [State.setUnit]

@[simp] theorem setUnit_same (s : State) (d : DeckId) : s.setUnit d (s.unit d) = s := by
  cases s; simp [State.setUnit, State.unit]

/-! ### setLane -/

@[simp] theorem setLane_channels (s : State) (n : LaneId) (k : Lane) : (s.setLane n k).channels = s.channels := rfl

@[simp] theorem setLane_period (s : State) (n : LaneId) (k : Lane) : (s.setLane n k).period = s.period := rfl

@[simp] theorem setLane_decks (s : State) (n : LaneId) (k : Lane) : (s.setLane n k).decks = s.decks := rfl

@[simp] theorem setLane_units (s : State) (n : LaneId) (k : Lane) : (s.setLane n k).units = s.units := rfl

@[simp] theorem setLane_lanes (s : State) (n : LaneId) (k : Lane) :
    (s.setLane n k).lanes = setAt s.lanes n k := rfl

@[simp] theorem setLane_register (s : State) (n : LaneId) (k : Lane) : (s.setLane n k).register = s.register := rfl

@[simp] theorem setLane_store (s : State) (n : LaneId) (k : Lane) : (s.setLane n k).store = s.store := rfl

@[simp] theorem setLane_journal (s : State) (n : LaneId) (k : Lane) : (s.setLane n k).journal = s.journal := rfl

@[simp] theorem setLane_links (s : State) (n : LaneId) (k : Lane) : (s.setLane n k).links = s.links := rfl

@[simp] theorem setLane_clock (s : State) (n : LaneId) (k : Lane) : (s.setLane n k).clock = s.clock := rfl

@[simp] theorem setLane_power (s : State) (n : LaneId) (k : Lane) : (s.setLane n k).power = s.power := rfl

@[simp] theorem setLane_pending (s : State) (n : LaneId) (k : Lane) : (s.setLane n k).pending = s.pending := rfl

@[simp] theorem setLane_freeIndex (s : State) (n : LaneId) (k : Lane) : (s.setLane n k).freeIndex = s.freeIndex := rfl

@[simp] theorem setLane_chan (s : State) (n : LaneId) (k : Lane) (j : ChanId) : (s.setLane n k).chan j = s.chan j := rfl

@[simp] theorem setLane_deck (s : State) (n : LaneId) (k : Lane) (j : DeckId) : (s.setLane n k).deck j = s.deck j := rfl

@[simp] theorem setLane_unit (s : State) (n : LaneId) (k : Lane) (j : DeckId) : (s.setLane n k).unit j = s.unit j := rfl

@[simp] theorem setLane_lane_self (s : State) (n : LaneId) (k : Lane) : (s.setLane n k).lane n = k :=
  get_setAt_self _ _ _

theorem setLane_lane_ne (s : State) {n j : LaneId} (k : Lane) (h : j ≠ n) : (s.setLane n k).lane j = s.lane j :=
  get_setAt_ne _ _ h

@[simp] theorem setLane_link (s : State) (n : LaneId) (k : Lane) (j : LinkId) : (s.setLane n k).link j = s.link j := rfl

@[simp] theorem setLane_jlink (s : State) (n : LaneId) (k : Lane) (j : LinkId) : (s.setLane n k).jlink j = s.jlink j := rfl

@[simp] theorem setLane_bound (s : State) (n : LaneId) (k : Lane) (j : LaneId) : (s.setLane n k).bound j = s.bound j := rfl

@[simp] theorem setLane_setLane (s : State) (n : LaneId) (k m : Lane) : (s.setLane n k).setLane n m = s.setLane n m := by
  simp [State.setLane]

@[simp] theorem setLane_same (s : State) (n : LaneId) : s.setLane n (s.lane n) = s := by
  cases s; simp [State.setLane, State.lane]

/-! ### setLink -/

@[simp] theorem setLink_channels (s : State) (l : LinkId) (k : LinkState) : (s.setLink l k).channels = s.channels := rfl

@[simp] theorem setLink_period (s : State) (l : LinkId) (k : LinkState) : (s.setLink l k).period = s.period := rfl

@[simp] theorem setLink_decks (s : State) (l : LinkId) (k : LinkState) : (s.setLink l k).decks = s.decks := rfl

@[simp] theorem setLink_units (s : State) (l : LinkId) (k : LinkState) : (s.setLink l k).units = s.units := rfl

@[simp] theorem setLink_lanes (s : State) (l : LinkId) (k : LinkState) : (s.setLink l k).lanes = s.lanes := rfl

@[simp] theorem setLink_register (s : State) (l : LinkId) (k : LinkState) : (s.setLink l k).register = s.register := rfl

@[simp] theorem setLink_store (s : State) (l : LinkId) (k : LinkState) : (s.setLink l k).store = s.store := rfl

@[simp] theorem setLink_journal (s : State) (l : LinkId) (k : LinkState) : (s.setLink l k).journal = s.journal := rfl

@[simp] theorem setLink_links (s : State) (l : LinkId) (k : LinkState) :
    (s.setLink l k).links = setAt s.links l k := rfl

@[simp] theorem setLink_clock (s : State) (l : LinkId) (k : LinkState) : (s.setLink l k).clock = s.clock := rfl

@[simp] theorem setLink_power (s : State) (l : LinkId) (k : LinkState) : (s.setLink l k).power = s.power := rfl

@[simp] theorem setLink_pending (s : State) (l : LinkId) (k : LinkState) : (s.setLink l k).pending = s.pending := rfl

@[simp] theorem setLink_freeIndex (s : State) (l : LinkId) (k : LinkState) : (s.setLink l k).freeIndex = s.freeIndex := rfl

@[simp] theorem setLink_chan (s : State) (l : LinkId) (k : LinkState) (j : ChanId) : (s.setLink l k).chan j = s.chan j := rfl

@[simp] theorem setLink_deck (s : State) (l : LinkId) (k : LinkState) (j : DeckId) : (s.setLink l k).deck j = s.deck j := rfl

@[simp] theorem setLink_unit (s : State) (l : LinkId) (k : LinkState) (j : DeckId) : (s.setLink l k).unit j = s.unit j := rfl

@[simp] theorem setLink_lane (s : State) (l : LinkId) (k : LinkState) (j : LaneId) : (s.setLink l k).lane j = s.lane j := rfl

@[simp] theorem setLink_link_self (s : State) (l : LinkId) (k : LinkState) : (s.setLink l k).link l = k :=
  get_setAt_self _ _ _

theorem setLink_link_ne (s : State) {l j : LinkId} (k : LinkState) (h : j ≠ l) : (s.setLink l k).link j = s.link j :=
  get_setAt_ne _ _ h

@[simp] theorem setLink_jlink (s : State) (l : LinkId) (k : LinkState) (j : LinkId) : (s.setLink l k).jlink j = s.jlink j := rfl

@[simp] theorem setLink_bound (s : State) (l : LinkId) (k : LinkState) (j : LaneId) : (s.setLink l k).bound j = s.bound j := rfl

@[simp] theorem setLink_setLink (s : State) (l : LinkId) (k m : LinkState) : (s.setLink l k).setLink l m = s.setLink l m := by
  simp [State.setLink]

@[simp] theorem setLink_same (s : State) (l : LinkId) : s.setLink l (s.link l) = s := by
  cases s; simp [State.setLink, State.link]

/-! ### setJlink -/

@[simp] theorem setJlink_channels (s : State) (l : LinkId) (k : JournalLink) : (s.setJlink l k).channels = s.channels := rfl

@[simp] theorem setJlink_period (s : State) (l : LinkId) (k : JournalLink) : (s.setJlink l k).period = s.period := rfl

@[simp] theorem setJlink_decks (s : State) (l : LinkId) (k : JournalLink) : (s.setJlink l k).decks = s.decks := rfl

@[simp] theorem setJlink_units (s : State) (l : LinkId) (k : JournalLink) : (s.setJlink l k).units = s.units := rfl

@[simp] theorem setJlink_lanes (s : State) (l : LinkId) (k : JournalLink) : (s.setJlink l k).lanes = s.lanes := rfl

@[simp] theorem setJlink_register (s : State) (l : LinkId) (k : JournalLink) : (s.setJlink l k).register = s.register := rfl

@[simp] theorem setJlink_store (s : State) (l : LinkId) (k : JournalLink) : (s.setJlink l k).store = s.store := rfl

@[simp] theorem setJlink_journal (s : State) (l : LinkId) (k : JournalLink) :
    (s.setJlink l k).journal = { s.journal with links := setAt s.journal.links l k } := rfl

@[simp] theorem setJlink_links (s : State) (l : LinkId) (k : JournalLink) : (s.setJlink l k).links = s.links := rfl

@[simp] theorem setJlink_clock (s : State) (l : LinkId) (k : JournalLink) : (s.setJlink l k).clock = s.clock := rfl

@[simp] theorem setJlink_power (s : State) (l : LinkId) (k : JournalLink) : (s.setJlink l k).power = s.power := rfl

@[simp] theorem setJlink_pending (s : State) (l : LinkId) (k : JournalLink) : (s.setJlink l k).pending = s.pending := rfl

@[simp] theorem setJlink_freeIndex (s : State) (l : LinkId) (k : JournalLink) : (s.setJlink l k).freeIndex = s.freeIndex := rfl

@[simp] theorem setJlink_chan (s : State) (l : LinkId) (k : JournalLink) (j : ChanId) : (s.setJlink l k).chan j = s.chan j := rfl

@[simp] theorem setJlink_deck (s : State) (l : LinkId) (k : JournalLink) (j : DeckId) : (s.setJlink l k).deck j = s.deck j := rfl

@[simp] theorem setJlink_unit (s : State) (l : LinkId) (k : JournalLink) (j : DeckId) : (s.setJlink l k).unit j = s.unit j := rfl

@[simp] theorem setJlink_lane (s : State) (l : LinkId) (k : JournalLink) (j : LaneId) : (s.setJlink l k).lane j = s.lane j := rfl

@[simp] theorem setJlink_link (s : State) (l : LinkId) (k : JournalLink) (j : LinkId) : (s.setJlink l k).link j = s.link j := rfl

@[simp] theorem setJlink_jlink_self (s : State) (l : LinkId) (k : JournalLink) : (s.setJlink l k).jlink l = k :=
  get_setAt_self _ _ _

theorem setJlink_jlink_ne (s : State) {l j : LinkId} (k : JournalLink) (h : j ≠ l) : (s.setJlink l k).jlink j = s.jlink j :=
  get_setAt_ne _ _ h

@[simp] theorem setJlink_bound (s : State) (l : LinkId) (k : JournalLink) (j : LaneId) : (s.setJlink l k).bound j = s.bound j := rfl

/-! ### offerAll -/

@[simp] theorem offerAll_channels (s : State) (x : Notice) : (s.offerAll x).channels = s.channels := rfl

@[simp] theorem offerAll_period (s : State) (x : Notice) : (s.offerAll x).period = s.period := rfl

@[simp] theorem offerAll_decks (s : State) (x : Notice) : (s.offerAll x).decks = s.decks := rfl

@[simp] theorem offerAll_units (s : State) (x : Notice) : (s.offerAll x).units = s.units := rfl

@[simp] theorem offerAll_lanes (s : State) (x : Notice) : (s.offerAll x).lanes = s.lanes := rfl

@[simp] theorem offerAll_register (s : State) (x : Notice) : (s.offerAll x).register = s.register := rfl

@[simp] theorem offerAll_store (s : State) (x : Notice) : (s.offerAll x).store = s.store := rfl

@[simp] theorem offerAll_journal (s : State) (x : Notice) : (s.offerAll x).journal = s.journal := rfl

@[simp] theorem offerAll_links (s : State) (x : Notice) : (s.offerAll x).links = Machine.offerAll s.links x := rfl

@[simp] theorem offerAll_clock (s : State) (x : Notice) : (s.offerAll x).clock = s.clock := rfl

@[simp] theorem offerAll_power (s : State) (x : Notice) : (s.offerAll x).power = s.power := rfl

@[simp] theorem offerAll_pending (s : State) (x : Notice) : (s.offerAll x).pending = s.pending := rfl

@[simp] theorem offerAll_freeIndex (s : State) (x : Notice) : (s.offerAll x).freeIndex = s.freeIndex := rfl

@[simp] theorem offerAll_chan (s : State) (x : Notice) (j : ChanId) : (s.offerAll x).chan j = s.chan j := rfl

@[simp] theorem offerAll_deck (s : State) (x : Notice) (j : DeckId) : (s.offerAll x).deck j = s.deck j := rfl

@[simp] theorem offerAll_unit (s : State) (x : Notice) (j : DeckId) : (s.offerAll x).unit j = s.unit j := rfl

@[simp] theorem offerAll_lane (s : State) (x : Notice) (j : LaneId) : (s.offerAll x).lane j = s.lane j := rfl

@[simp] theorem offerAll_jlink (s : State) (x : Notice) (j : LinkId) : (s.offerAll x).jlink j = s.jlink j := rfl

@[simp] theorem offerAll_bound (s : State) (x : Notice) (j : LaneId) : (s.offerAll x).bound j = s.bound j := rfl

/-! ### offerOne -/

@[simp] theorem offerOne_channels (s : State) (i : LinkId) (x : Notice) : (s.offerOne i x).channels = s.channels := rfl

@[simp] theorem offerOne_period (s : State) (i : LinkId) (x : Notice) : (s.offerOne i x).period = s.period := rfl

@[simp] theorem offerOne_decks (s : State) (i : LinkId) (x : Notice) : (s.offerOne i x).decks = s.decks := rfl

@[simp] theorem offerOne_units (s : State) (i : LinkId) (x : Notice) : (s.offerOne i x).units = s.units := rfl

@[simp] theorem offerOne_lanes (s : State) (i : LinkId) (x : Notice) : (s.offerOne i x).lanes = s.lanes := rfl

@[simp] theorem offerOne_register (s : State) (i : LinkId) (x : Notice) : (s.offerOne i x).register = s.register := rfl

@[simp] theorem offerOne_store (s : State) (i : LinkId) (x : Notice) : (s.offerOne i x).store = s.store := rfl

@[simp] theorem offerOne_journal (s : State) (i : LinkId) (x : Notice) : (s.offerOne i x).journal = s.journal := rfl

@[simp] theorem offerOne_links (s : State) (i : LinkId) (x : Notice) : (s.offerOne i x).links = Machine.offerOne s.links i x := rfl

@[simp] theorem offerOne_clock (s : State) (i : LinkId) (x : Notice) : (s.offerOne i x).clock = s.clock := rfl

@[simp] theorem offerOne_power (s : State) (i : LinkId) (x : Notice) : (s.offerOne i x).power = s.power := rfl

@[simp] theorem offerOne_pending (s : State) (i : LinkId) (x : Notice) : (s.offerOne i x).pending = s.pending := rfl

@[simp] theorem offerOne_freeIndex (s : State) (i : LinkId) (x : Notice) : (s.offerOne i x).freeIndex = s.freeIndex := rfl

@[simp] theorem offerOne_chan (s : State) (i : LinkId) (x : Notice) (j : ChanId) : (s.offerOne i x).chan j = s.chan j := rfl

@[simp] theorem offerOne_deck (s : State) (i : LinkId) (x : Notice) (j : DeckId) : (s.offerOne i x).deck j = s.deck j := rfl

@[simp] theorem offerOne_unit (s : State) (i : LinkId) (x : Notice) (j : DeckId) : (s.offerOne i x).unit j = s.unit j := rfl

@[simp] theorem offerOne_lane (s : State) (i : LinkId) (x : Notice) (j : LaneId) : (s.offerOne i x).lane j = s.lane j := rfl

@[simp] theorem offerOne_jlink (s : State) (i : LinkId) (x : Notice) (j : LinkId) : (s.offerOne i x).jlink j = s.jlink j := rfl

@[simp] theorem offerOne_bound (s : State) (i : LinkId) (x : Notice) (j : LaneId) : (s.offerOne i x).bound j = s.bound j := rfl

/-! ### offerEach -/

@[simp] theorem offerEach_channels (s : State) (x : List (LinkId × Notice)) : (s.offerEach x).channels = s.channels := rfl

@[simp] theorem offerEach_period (s : State) (x : List (LinkId × Notice)) : (s.offerEach x).period = s.period := rfl

@[simp] theorem offerEach_decks (s : State) (x : List (LinkId × Notice)) : (s.offerEach x).decks = s.decks := rfl

@[simp] theorem offerEach_units (s : State) (x : List (LinkId × Notice)) : (s.offerEach x).units = s.units := rfl

@[simp] theorem offerEach_lanes (s : State) (x : List (LinkId × Notice)) : (s.offerEach x).lanes = s.lanes := rfl

@[simp] theorem offerEach_register (s : State) (x : List (LinkId × Notice)) : (s.offerEach x).register = s.register := rfl

@[simp] theorem offerEach_store (s : State) (x : List (LinkId × Notice)) : (s.offerEach x).store = s.store := rfl

@[simp] theorem offerEach_journal (s : State) (x : List (LinkId × Notice)) : (s.offerEach x).journal = s.journal := rfl

@[simp] theorem offerEach_links (s : State) (x : List (LinkId × Notice)) : (s.offerEach x).links = Machine.offerEach s.links x := rfl

@[simp] theorem offerEach_clock (s : State) (x : List (LinkId × Notice)) : (s.offerEach x).clock = s.clock := rfl

@[simp] theorem offerEach_power (s : State) (x : List (LinkId × Notice)) : (s.offerEach x).power = s.power := rfl

@[simp] theorem offerEach_pending (s : State) (x : List (LinkId × Notice)) : (s.offerEach x).pending = s.pending := rfl

@[simp] theorem offerEach_freeIndex (s : State) (x : List (LinkId × Notice)) : (s.offerEach x).freeIndex = s.freeIndex := rfl

@[simp] theorem offerEach_chan (s : State) (x : List (LinkId × Notice)) (j : ChanId) : (s.offerEach x).chan j = s.chan j := rfl

@[simp] theorem offerEach_deck (s : State) (x : List (LinkId × Notice)) (j : DeckId) : (s.offerEach x).deck j = s.deck j := rfl

@[simp] theorem offerEach_unit (s : State) (x : List (LinkId × Notice)) (j : DeckId) : (s.offerEach x).unit j = s.unit j := rfl

@[simp] theorem offerEach_lane (s : State) (x : List (LinkId × Notice)) (j : LaneId) : (s.offerEach x).lane j = s.lane j := rfl

@[simp] theorem offerEach_jlink (s : State) (x : List (LinkId × Notice)) (j : LinkId) : (s.offerEach x).jlink j = s.jlink j := rfl

@[simp] theorem offerEach_bound (s : State) (x : List (LinkId × Notice)) (j : LaneId) : (s.offerEach x).bound j = s.bound j := rfl

end Sys2Proof.Machine
end

