-- ==== Sys2Proof/Laws/Barrier.lean ====
section
/-! SUPPORT. What an operation of the barrier machine can do to its lane: inputs, setup, outputs and word stay (sameSite), the
guard of the CLEAR loop stays, and which causes, marks and counts it leaves. -/

namespace Sys2Proof.Machine

/-- The lane's inputs, setup, outputs and latest word are the same. -/
def Lane.sameSite (k k' : Lane) : Prop :=
  k'.setup = k.setup ∧ k'.setupBad = k.setupBad ∧ k'.deckLoop = k.deckLoop ∧ k'.clearLoop = k.clearLoop ∧
    k'.up = k.up ∧ k'.down = k.down ∧ k'.raiseOut = k.raiseOut ∧ k'.lowerOut = k.lowerOut ∧ k'.goOut = k.goOut ∧
    k'.word = k.word

theorem Lane.sameSite_refl (k : Lane) : k.sameSite k := ⟨rfl, rfl, rfl, rfl, rfl, rfl, rfl, rfl, rfl, rfl⟩

theorem Lane.sameSite_trans {a b c : Lane} (h : a.sameSite b) (h' : b.sameSite c) : a.sameSite c := by
  obtain ⟨h1, h2, h3, h4, h5, h6, h7, h8, h9, h10⟩ := h
  obtain ⟨g1, g2, g3, g4, g5, g6, g7, g8, g9, g10⟩ := h'
  exact ⟨g1.trans h1, g2.trans h2, g3.trans h3, g4.trans h4, g5.trans h5, g6.trans h6, g7.trans h7, g8.trans h8,
    g9.trans h9, g10.trans h10⟩

/-! ### Entering a barrier state -/

/-- The barrier, its timers and its jam reason are all that an entry to a state changes. -/
def Lane.sameCause (k k' : Lane) : Prop :=
  k'.cause = k.cause ∧ k'.mark = k.mark ∧ k'.count = k.count ∧ k'.settled = k.settled ∧ k'.settle = k.settle

theorem jamFor_spec (k : Lane) (why : JamReason) :
    k.sameSite (k.jamFor why).lane ∧ k.sameCause (k.jamFor why).lane ∧ (k.jamFor why).lane.barrier = .jammed ∧
      (k.jamFor why).jammed = true ∧ (k.jamFor why).tailgate = false ∧ (k.jamFor why).passage = none := by
  simp [Lane.jamFor, Lane.sameSite, Lane.sameCause]

/-- R80, R81: entry to DOWN. -/
theorem enterDown_spec (k : Lane) :
    k.sameSite k.enterDown.lane ∧ k.sameCause k.enterDown.lane ∧ k.enterDown.tailgate = false ∧
      k.enterDown.passage = none ∧
      k.enterDown.lane.barrier = (if k.bothLimits then .jammed else .down) := by
  unfold Lane.enterDown
  split <;> simp_all [Lane.jamFor, Lane.sameSite, Lane.sameCause]

/-- R80, R81: entry to LOWERING. -/
theorem enterLowering_spec (k : Lane) :
    k.sameSite k.enterLowering.lane ∧ k.sameCause k.enterLowering.lane ∧ k.enterLowering.tailgate = false ∧
      k.enterLowering.passage = none ∧
      k.enterLowering.lane.barrier =
        (if k.bothLimits then .jammed else if k.down.active then .down else .lowering) := by
  unfold Lane.enterLowering
  split
  · simp_all [Lane.jamFor, Lane.sameSite, Lane.sameCause]
  · split
    · obtain ⟨h1, h2, h3, h4, h5⟩ := enterDown_spec k
      exact ⟨h1, h2, h3, h4, by simp_all⟩
    · simp_all [Lane.sameSite, Lane.sameCause]

/-- R84: the lower conditions judged. -/
theorem judgeLower_spec (k : Lane) :
    k.sameSite k.judgeLower.lane ∧ k.sameCause k.judgeLower.lane ∧ k.judgeLower.tailgate = false ∧
      k.judgeLower.passage = none ∧
      (k.lowerConditions = false → k.judgeLower = { lane := k }) ∧
      (k.lowerConditions = true → k.judgeLower = k.enterLowering) := by
  obtain ⟨h1, h2, h3, h4, _⟩ := enterLowering_spec k
  unfold Lane.judgeLower
  split
  · exact ⟨h1, h2, h3, h4, by simp_all, fun _ => rfl⟩
  · exact ⟨Lane.sameSite_refl k, ⟨rfl, rfl, rfl, rfl, rfl⟩, rfl, rfl, fun _ => rfl, by simp_all⟩

/-- R80, R81: entry to UP, and the lower conditions judged there. -/
theorem enterUp_spec (k : Lane) :
    k.sameSite k.enterUp.lane ∧ k.sameCause k.enterUp.lane ∧ k.enterUp.tailgate = false ∧ k.enterUp.passage = none ∧
      k.enterUp.lane.barrier =
        (if k.bothLimits then .jammed
         else if !k.pendingCause (fun _ => true) && k.settled then (if k.down.active then .down else .lowering)
         else .up) := by
  unfold Lane.enterUp
  split
  · simp_all [Lane.jamFor, Lane.sameSite, Lane.sameCause]
  · rename_i hb
    generalize hk : ({ k with barrier := .up, jam := .none, travel := none, resolution := none } : Lane) = u
    have hs : k.sameSite u := by subst hk; simp [Lane.sameSite]
    have hc : k.sameCause u := by subst hk; simp [Lane.sameCause]
    obtain ⟨h1, h2, h3, h4, h5, h6⟩ := judgeLower_spec u
    refine ⟨Lane.sameSite_trans hs h1, ?_, h3, h4, ?_⟩
    · obtain ⟨a1, a2, a3, a4, a5⟩ := hc
      obtain ⟨b1, b2, b3, b4, b5⟩ := h2
      exact ⟨b1.trans a1, b2.trans a2, b3.trans a3, b4.trans a4, b5.trans a5⟩
    · have hl : u.lowerConditions = (!k.pendingCause (fun _ => true) && k.settled) := by subst hk; rfl
      rw [hl] at h5 h6
      by_cases hp : (!k.pendingCause (fun _ => true) && k.settled) = true
      · obtain ⟨_, _, _, _, g⟩ := enterLowering_spec u
        rw [h6 hp, g]
        have e1 : u.bothLimits = k.bothLimits := by subst hk; rfl
        have e2 : u.down = k.down := by subst hk; rfl
        simp only [e1, e2, hp, hb]
        simp
      · have hp' : (!k.pendingCause (fun _ => true) && k.settled) = false := by simpa using hp
        rw [h5 hp', hp']
        subst hk
        simp

/-- R80, R81: entry to RAISING. -/
theorem enterRaising_spec (k : Lane) :
    k.sameSite k.enterRaising.lane ∧ k.sameCause k.enterRaising.lane ∧ k.enterRaising.tailgate = false ∧
      k.enterRaising.passage = none ∧
      (k.bothLimits = true → k.enterRaising.lane.barrier = .jammed) ∧
      (k.up.active = true → k.enterRaising = k.enterUp) ∧
      (k.up.active = false → k.enterRaising.lane.barrier = .raising) := by
  obtain ⟨h1, h2, h3, h4, h5⟩ := enterUp_spec k
  unfold Lane.enterRaising
  split
  · rename_i hb
    refine ⟨?_, ?_, rfl, rfl, fun _ => rfl, fun _ => ?_, fun hu => ?_⟩
    · simp [Lane.jamFor, Lane.sameSite]
    · simp [Lane.jamFor, Lane.sameCause]
    · simp [Lane.enterUp, hb]
    · simp [Lane.bothLimits, hu] at hb
  · split
    · exact ⟨h1, h2, h3, h4, by simp_all, fun _ => rfl, by simp_all⟩
    · simp_all [Lane.sameSite, Lane.sameCause]

/-! ### Causes -/

/-- R79: a raise gives its cause with count 0 and keeps the mark and the settling. -/
theorem raise_spec (k : Lane) (c : CauseKind) :
    k.sameSite (k.raise c).lane ∧ (k.raise c).lane.cause = some ⟨c, .pending⟩ ∧ (k.raise c).lane.count = 0 ∧
      (k.raise c).lane.mark = k.mark ∧ (k.raise c).lane.settled = k.settled ∧ (k.raise c).lane.settle = k.settle ∧
      (k.raise c).tailgate = false ∧ (k.raise c).passage = none ∧
      (k.barrier = .raising ∨ k.barrier = .up ∨ k.barrier = .jammed → k.raise c = { lane := k.giveCause c }) ∧
      (k.barrier = .unresolved ∨ k.barrier = .down ∨ k.barrier = .lowering →
        (k.raise c).lane.barrier = (if k.bothLimits then .jammed else if k.up.active then .up else .raising)) := by
  obtain ⟨h1, h2, h3, h4, h5, h6, h7⟩ := enterRaising_spec (k.giveCause c)
  obtain ⟨_, _, _, _, g5⟩ := enterUp_spec (k.giveCause c)
  have hs : k.sameSite (k.giveCause c) := by simp [Lane.giveCause, Lane.sameSite]
  obtain ⟨a1, a2, a3, a4, a5⟩ := h2
  have hb : (k.giveCause c).barrier = k.barrier := rfl
  unfold Lane.raise Lane.raiseArm
  rw [hb]
  have hbl : (k.giveCause c).bothLimits = k.bothLimits := rfl
  have hup : (k.giveCause c).up = k.up := rfl
  have hpc : (k.giveCause c).pendingCause (fun _ => true) = true := by simp [Lane.giveCause, Lane.pendingCause, Cause.isPending]
  have hres : (k.giveCause c).enterRaising.lane.barrier =
      (if k.bothLimits then .jammed else if k.up.active then .up else .raising) := by
    by_cases x1 : k.bothLimits = true
    · simp [h5 (hbl.trans x1), x1]
    · by_cases x2 : k.up.active = true
      · rw [h6 (by rw [hup]; exact x2), g5]
        simp [hbl, x1, x2, hpc]
      · rw [h7 (by rw [hup]; simpa using x2)]
        simp [x1, x2]
  cases hbar : k.barrier <;> simp_all [Lane.giveCause, Lane.sameSite]

/-- R86: a withdrawal of a PENDING cause that passes a test. -/
theorem withdraw_spec (k : Lane) (p : Cause → Bool) :
    k.sameSite (k.withdraw p).lane ∧ (k.withdraw p).lane.count = k.count ∧ (k.withdraw p).lane.mark = k.mark ∧
      (k.withdraw p).lane.settled = k.settled ∧ (k.withdraw p).lane.settle = k.settle ∧
      (k.withdraw p).tailgate = false ∧ (k.withdraw p).passage = none ∧
      (k.pendingCause p = false → k.withdraw p = { lane := k }) ∧
      (k.pendingCause p = true →
        (k.withdraw p).lane.cause = k.cause.map (fun c => { c with status := .withdrawn })) := by
  obtain ⟨h1, h2, h3, h4, _, _⟩ := judgeLower_spec (k.markCause .withdrawn)
  obtain ⟨a1, a2, a3, a4, a5⟩ := h2
  have hs : k.sameSite (k.markCause .withdrawn) := by simp [Lane.markCause, Lane.sameSite]
  unfold Lane.withdraw
  split
  · rename_i hp
    exact ⟨Lane.sameSite_trans hs h1, a3, a2, a4, a5, h3, h4, fun h => by simp [h] at hp, fun _ => a1⟩
  · rename_i hp
    exact ⟨Lane.sameSite_refl k, rfl, rfl, rfl, rfl, rfl, rfl, fun _ => rfl, fun h => absurd h hp⟩

/-! ### The guard of the CLEAR loop (R77, R83, R85) -/

/-- A lane whose arm is not lowering, that is not settled and runs no settle timer is guarded. -/
theorem clearGuarded_of_clear (k : Lane) (h : k.clearLoop.occupied = false) : k.clearGuarded := by
  intro h'
  rw [h] at h'
  cases h'

theorem clearGuarded_enterLowering (k : Lane) (h : k.clearLoop.occupied = false) : k.enterLowering.lane.clearGuarded := by
  obtain ⟨⟨_, _, _, h4, _⟩, _⟩ := enterLowering_spec k
  exact clearGuarded_of_clear _ (by rw [h4]; exact h)

theorem clearGuarded_judgeLower (k : Lane) (h : k.clearGuarded) : k.judgeLower.lane.clearGuarded := by
  obtain ⟨_, _, _, _, h5, h6⟩ := judgeLower_spec k
  by_cases hl : k.lowerConditions = true
  · rw [h6 hl]
    apply clearGuarded_enterLowering
    by_contra hc
    have := (h (by simpa using hc)).2.1
    simp [Lane.lowerConditions, this] at hl
  · rw [h5 (by simpa using hl)]; exact h

theorem clearGuarded_enterUp (k : Lane) (h : k.clearLoop.occupied = true → k.settled = false ∧ k.settle = none) :
    k.enterUp.lane.clearGuarded := by
  unfold Lane.enterUp
  split
  · intro hc
    have := h hc
    exact ⟨by simp [Lane.jamFor], this⟩
  · apply clearGuarded_judgeLower
    intro hc
    exact ⟨by simp, h hc⟩

theorem clearGuarded_enterRaising (k : Lane) (h : k.clearLoop.occupied = true → k.settled = false ∧ k.settle = none) :
    k.enterRaising.lane.clearGuarded := by
  unfold Lane.enterRaising
  split
  · intro hc
    exact ⟨by simp [Lane.jamFor], h hc⟩
  · split
    · exact clearGuarded_enterUp k h
    · intro hc
      exact ⟨by simp, h hc⟩

theorem clearGuarded_raise (k : Lane) (c : CauseKind) (h : k.clearGuarded) : (k.raise c).lane.clearGuarded := by
  have hg : (k.giveCause c).clearGuarded := h
  have he := clearGuarded_enterRaising (k.giveCause c) (fun hc => (hg hc).2)
  unfold Lane.raise Lane.raiseArm
  split <;> first | exact he | exact hg

theorem clearGuarded_withdraw (k : Lane) (p : Cause → Bool) (h : k.clearGuarded) : (k.withdraw p).lane.clearGuarded := by
  unfold Lane.withdraw
  split
  · exact clearGuarded_judgeLower _ h
  · exact h

/-! ### Events, timers and requests at the barrier -/

/-- A CLEAR occupied event (R82, R83, R85). -/
theorem clearOccupied_spec (k : Lane) (f : Bool) :
    k.sameSite (k.clearOccupied f).lane ∧ (k.clearOccupied f).lane.settle = none ∧
      (k.clearOccupied f).lane.settled = false ∧ (k.clearOccupied f).lane.mark = (k.mark || k.marks f) ∧
      (k.clearOccupied f).lane.count = k.count ∧ (k.clearOccupied f).tailgate = false ∧
      (k.clearOccupied f).passage = none ∧ (k.clearOccupied f).lane.clearGuarded ∧
      (k.barrier ≠ .lowering → (k.clearOccupied f).lane.barrier = k.barrier ∧
        (k.clearOccupied f).lane.cause = k.cause) ∧
      (k.barrier = .lowering → (k.clearOccupied f).lane.cause = some ⟨.safety, .pending⟩) := by
  by_cases hb : k.barrier = .lowering
  · generalize hu : ({ k with
        settle := none, settled := false, mark := k.mark || k.marks f, cause := some ⟨.safety, .pending⟩ } : Lane) = u
    have e : k.clearOccupied f = u.enterRaising := by subst hu; exact if_pos hb
    rw [e]
    obtain ⟨h1, ⟨c1, c2, c3, c4, c5⟩, h3, h4, _⟩ := enterRaising_spec u
    have hs : k.sameSite u := by subst hu; simp [Lane.sameSite]
    refine ⟨Lane.sameSite_trans hs h1, ?_, ?_, ?_, ?_, h3, h4, ?_, fun h => absurd hb h, fun _ => ?_⟩
    · rw [c5]; subst hu; rfl
    · rw [c4]; subst hu; rfl
    · rw [c2]; subst hu; rfl
    · rw [c3]; subst hu; rfl
    · exact clearGuarded_enterRaising u (fun _ => by subst hu; exact ⟨rfl, rfl⟩)
    · rw [c1]; subst hu; rfl
  · have e : k.clearOccupied f =
        { lane := { k with settle := none, settled := false, mark := k.mark || k.marks f } } := if_neg hb
    rw [e]
    simp [hb, Lane.sameSite, Lane.clearGuarded]

/-- A CLEAR cleared event (R82, R83, R86); `loop` already reads clear. -/
theorem clearCleared_spec (k : Lane) :
    k.sameSite k.clearCleared.lane ∧ k.clearCleared.lane.mark = false ∧ k.clearCleared.lane.settled = false ∧
      k.clearCleared.lane.settle = some (k.setup.settle * 100) ∧
      k.clearCleared.lane.count = (if k.isPassage then min (k.count + 1) 255 else k.count) ∧
      k.clearCleared.tailgate = (k.isPassage && k.isTailgate) ∧
      k.clearCleared.passage = (if k.isPassage then k.credited else none) ∧ k.clearCleared.jammed = false ∧
      k.clearCleared.lane.barrier = k.barrier := by
  have nolower : ∀ u : Lane, u.settled = false → u.judgeLower = { lane := u } := by
    intro u hu
    exact (judgeLower_spec u).2.2.2.2.1 (by simp [Lane.lowerConditions, hu])
  unfold Lane.clearCleared
  by_cases hp : k.isPassage = true
  · simp only [hp, if_true]
    by_cases hc : k.pendingCause (fun _ => true) = true
    · rw [nolower _ (by simp [hc, Lane.markCause])]
      simp [hc, Lane.sameSite, Lane.markCause]
    · rw [nolower _ (by simp [hc])]
      simp [hc, Lane.sameSite]
  · simp only [hp]
    simp only [Bool.false_eq_true, if_false, Bool.false_and]
    unfold Lane.withdraw
    split
    · rw [nolower _ rfl]
      simp [Lane.sameSite, Lane.markCause]
    · simp [Lane.sameSite]

/-- The back-off of a DECK cleared event (R86). -/
theorem deckCleared_spec (k : Lane) :
    k.sameSite k.deckCleared.lane ∧ k.deckCleared.lane.count = k.count ∧ k.deckCleared.lane.mark = k.mark ∧
      k.deckCleared.lane.settled = k.settled ∧ k.deckCleared.lane.settle = k.settle ∧
      k.deckCleared.tailgate = false ∧ k.deckCleared.passage = none ∧
      (k.clearGuarded → k.deckCleared.lane.clearGuarded) := by
  obtain ⟨h1, h2, h3, h4, h5, h6, h7, _⟩ := withdraw_spec k Cause.isVisit
  unfold Lane.deckCleared
  split
  · exact ⟨Lane.sameSite_refl k, rfl, rfl, rfl, rfl, rfl, rfl, id⟩
  · exact ⟨h1, h2, h3, h4, h5, h6, h7, clearGuarded_withdraw k _⟩

/-- A loop event at the barrier machine (R75): only a CLEAR cleared event can hand on a passage. -/
theorem laneLoopEvent_spec (k : Lane) (i : LoopId) (occ f : Bool) :
    k.sameSite (k.loopEvent i occ f).lane ∧
      ((i = .clear → occ = true) → (k.loopEvent i occ f).passage = none ∧ (k.loopEvent i occ f).tailgate = false) := by
  cases i <;> cases occ
  · exact ⟨(deckCleared_spec k).1, fun _ => ⟨(deckCleared_spec k).2.2.2.2.2.2.1, (deckCleared_spec k).2.2.2.2.2.1⟩⟩
  · exact ⟨Lane.sameSite_refl k, fun _ => ⟨rfl, rfl⟩⟩
  · exact ⟨(clearCleared_spec k).1, fun h => by cases h rfl⟩
  · obtain ⟨h1, _, _, _, _, h6, h7, _⟩ := clearOccupied_spec k f
    exact ⟨h1, fun _ => ⟨h7, h6⟩⟩

/-- A loop event whose level the loop already reads keeps the guard. -/
theorem clearGuarded_loopEvent (k : Lane) (i : LoopId) (occ f : Bool) (hi : i = .clear → k.clearLoop.occupied = occ)
    (h : (i = .clear ∧ occ = true) ∨ k.clearGuarded) : (k.loopEvent i occ f).lane.clearGuarded := by
  cases i <;> cases occ
  · rcases h with ⟨h, _⟩ | h
    · cases h
    · exact (deckCleared_spec k).2.2.2.2.2.2.2 h
  · rcases h with ⟨h, _⟩ | h
    · cases h
    · exact h
  · obtain ⟨⟨_, _, _, h4, _⟩, _⟩ := clearCleared_spec k
    exact clearGuarded_of_clear _ (h4 ▸ hi rfl)
  · exact (clearOccupied_spec k f).2.2.2.2.2.2.2.1

/-- A limit event keeps cause, mark, count and settling (R81), and the guard. -/
theorem limitEvent_spec (k : Lane) (i : LimitId) :
    k.sameSite (k.limitEvent i).lane ∧ k.sameCause (k.limitEvent i).lane ∧ (k.limitEvent i).tailgate = false ∧
      (k.limitEvent i).passage = none ∧ (k.clearGuarded → (k.limitEvent i).lane.clearGuarded) := by
  unfold Lane.limitEvent
  split
  · obtain ⟨h1, h2, _, _, h5, h6⟩ := jamFor_spec k .bothLimits
    exact ⟨h1, h2, h5, h6, fun h hc => ⟨by simp [Lane.jamFor], (h hc).2⟩⟩
  · split
    · obtain ⟨h1, h2, h3, h4, _⟩ := enterUp_spec k
      exact ⟨h1, h2, h3, h4, fun h => clearGuarded_enterUp k (fun hc => (h hc).2)⟩
    · split
      · obtain ⟨h1, h2, h3, h4, h5⟩ := enterDown_spec k
        refine ⟨h1, h2, h3, h4, fun h hc => ?_⟩
        obtain ⟨_, _, _, g4, _⟩ := h1
        obtain ⟨_, _, _, c4, c5⟩ := h2
        rw [g4] at hc
        refine ⟨by rw [h5]; split <;> simp, ?_, ?_⟩
        · rw [c4]; exact (h hc).2.1
        · rw [c5]; exact (h hc).2.2
      · exact ⟨Lane.sameSite_refl k, ⟨rfl, rfl, rfl, rfl, rfl⟩, rfl, rfl, id⟩

/-- The travel timer's end (R81). -/
theorem travelExpired_spec (k : Lane) :
    k.sameSite k.travelExpired.lane ∧ k.sameCause k.travelExpired.lane ∧ k.travelExpired.tailgate = false ∧
      k.travelExpired.passage = none ∧ (k.clearGuarded → k.travelExpired.lane.clearGuarded) := by
  unfold Lane.travelExpired
  cases hb : k.barrier <;>
    simp_all [Lane.jamFor, Lane.sameSite, Lane.sameCause, Lane.clearGuarded]

/-- The settle timer's end (R83, R84). -/
theorem settleExpired_spec (k : Lane) :
    k.sameSite k.settleExpired.lane ∧ k.settleExpired.lane.cause = k.cause ∧ k.settleExpired.lane.mark = k.mark ∧
      k.settleExpired.lane.count = k.count ∧ k.settleExpired.lane.settled = true ∧
      k.settleExpired.lane.settle = none ∧ k.settleExpired.tailgate = false ∧ k.settleExpired.passage = none ∧
      (k.clearGuarded → k.settle.isSome = true → k.settleExpired.lane.clearGuarded) := by
  unfold Lane.settleExpired
  generalize hu : ({ k with settle := none, settled := true } : Lane) = u
  obtain ⟨h1, ⟨c1, c2, c3, c4, c5⟩, h3, h4, _, _⟩ := judgeLower_spec u
  have hs : k.sameSite u := by subst hu; simp [Lane.sameSite]
  refine ⟨Lane.sameSite_trans hs h1, ?_, ?_, ?_, ?_, ?_, h3, h4, fun hg hk => ?_⟩
  · rw [c1]; subst hu; rfl
  · rw [c2]; subst hu; rfl
  · rw [c3]; subst hu; rfl
  · rw [c4]; subst hu; rfl
  · rw [c5]; subst hu; rfl
  · apply clearGuarded_judgeLower
    intro hc
    have : k.clearLoop.occupied = true := by subst hu; exact hc
    rw [(hg this).2.2] at hk
    cases hk

/-- A resolution (R87). -/
theorem resolve_spec (k : Lane) :
    k.sameSite k.resolve.lane ∧ k.resolve.lane.count = 0 ∧ k.resolve.lane.settled = k.settled ∧
      k.resolve.lane.settle = k.settle ∧ k.resolve.tailgate = false ∧ k.resolve.passage = none ∧
      (k.clearGuarded → k.resolve.lane.clearGuarded) := by
  unfold Lane.resolve
  generalize hu : ({ k with resolution := none, cause := none, count := 0 } : Lane) = u
  have hs : k.sameSite u := by subst hu; simp [Lane.sameSite]
  have hcnt : u.count = 0 := by subst hu; rfl
  have hset : u.settled = k.settled := by subst hu; rfl
  have hstl : u.settle = k.settle := by subst hu; rfl
  have hcl : u.clearLoop = k.clearLoop := by subst hu; rfl
  have hbl : k.bothLimits = u.bothLimits := by subst hu; rfl
  have hsf : u.sameSite u.safetyFound ∧ u.safetyFound.count = u.count ∧ u.safetyFound.settled = u.settled ∧
      u.safetyFound.settle = u.settle := by simp [Lane.safetyFound, Lane.sameSite]
  obtain ⟨hsf1, hsf2, hsf3, hsf4⟩ := hsf
  simp only
  split
  · obtain ⟨h1, ⟨_, _, c3, c4, c5⟩, _, _, h5, h6⟩ := jamFor_spec u .bothLimits
    refine ⟨Lane.sameSite_trans hs h1, c3.trans hcnt, c4.trans hset, c5.trans hstl, h5, h6, fun hg hc => ?_⟩
    have hc' : k.clearLoop.occupied = true := hcl ▸ hc
    exact ⟨by simp [Lane.jamFor], (c4.trans hset).trans (hg hc').2.1, (c5.trans hstl).trans (hg hc').2.2⟩
  · split
    · obtain ⟨h1, ⟨_, _, c3, c4, c5⟩, h5, h6, h7⟩ := enterDown_spec u
      refine ⟨Lane.sameSite_trans hs h1, c3.trans hcnt, c4.trans hset, c5.trans hstl, h5, h6, fun hg hc => ?_⟩
      have hc' : k.clearLoop.occupied = true := by rw [← hcl, ← h1.2.2.2.1]; exact hc
      exact ⟨by rw [h7]; split <;> simp, (c4.trans hset).trans (hg hc').2.1, (c5.trans hstl).trans (hg hc').2.2⟩
    · split
      · obtain ⟨h1, ⟨_, _, c3, c4, c5⟩, h5, h6, _⟩ := enterUp_spec u.safetyFound
        refine ⟨Lane.sameSite_trans hs (Lane.sameSite_trans hsf1 h1), (c3.trans hsf2).trans hcnt,
          (c4.trans hsf3).trans hset, (c5.trans hsf4).trans hstl, h5, h6, fun hg => ?_⟩
        refine clearGuarded_enterUp _ (fun hc => ?_)
        have hc' : k.clearLoop.occupied = true := hcl ▸ hc
        exact ⟨(hsf3.trans hset).trans (hg hc').2.1, (hsf4.trans hstl).trans (hg hc').2.2⟩
      · split
        · obtain ⟨h1, ⟨_, _, c3, c4, c5⟩, h5, h6, _⟩ := enterRaising_spec u.safetyFound
          refine ⟨Lane.sameSite_trans hs (Lane.sameSite_trans hsf1 h1), (c3.trans hsf2).trans hcnt,
            (c4.trans hsf3).trans hset, (c5.trans hsf4).trans hstl, h5, h6, fun hg => ?_⟩
          refine clearGuarded_enterRaising _ (fun hc => ?_)
          have hc' : k.clearLoop.occupied = true := hcl ▸ hc
          exact ⟨(hsf3.trans hset).trans (hg hc').2.1, (hsf4.trans hstl).trans (hg hc').2.2⟩
        · rename_i hocc
          obtain ⟨h1, ⟨_, _, c3, c4, c5⟩, h5, h6, _⟩ := enterLowering_spec u
          refine ⟨Lane.sameSite_trans hs h1, c3.trans hcnt, c4.trans hset, c5.trans hstl, h5, h6, fun _ => ?_⟩
          exact clearGuarded_enterLowering u (by rw [hcl]; simpa using hocc)

/-- MANUAL_RAISE at the barrier (R88). -/
theorem manualRaise_spec (k : Lane) :
    k.sameSite k.manualRaise.lane ∧ k.manualRaise.lane.cause = k.manualCause.cause ∧
      k.manualRaise.lane.count = k.manualCause.count ∧ k.manualRaise.tailgate = false ∧
      k.manualRaise.passage = none ∧ (k.clearGuarded → k.manualRaise.lane.clearGuarded) := by
  have hs : k.sameSite k.manualCause := by
    unfold Lane.manualCause; split <;> simp [Lane.sameSite, Lane.giveCause]
  have hg : k.clearGuarded → k.manualCause.clearGuarded := by
    intro h; unfold Lane.manualCause; split <;> exact h
  obtain ⟨h1, ⟨c1, _, c3, _, _⟩, h3, h4, _⟩ := enterRaising_spec k.manualCause
  have he : k.clearGuarded → k.manualCause.enterRaising.lane.clearGuarded :=
    fun h => clearGuarded_enterRaising _ (fun hc => (hg h hc).2)
  unfold Lane.manualRaise
  cases k.barrier <;>
    first
      | exact ⟨Lane.sameSite_trans hs h1, c1, c3, h3, h4, he⟩
      | exact ⟨hs, rfl, rfl, rfl, rfl, hg⟩

/-- LOWER_RESET at the barrier, where it is taken (R89). -/
theorem lowerReset_spec (k : Lane) (r : LaneStep) (h : k.lowerReset = some r) :
    k.sameSite r.lane ∧ r.lane.count = k.count ∧ r.lane.mark = k.mark ∧ r.tailgate = false ∧ r.passage = none ∧
      (k.clearGuarded → r.lane.clearGuarded) := by
  have hw := withdraw_spec k (fun _ => true)
  have hraised : ∀ r, k.resetRaised = some r →
      k.sameSite r.lane ∧ r.lane.count = k.count ∧ r.lane.mark = k.mark ∧ r.tailgate = false ∧ r.passage = none ∧
        (k.clearGuarded → r.lane.clearGuarded) := by
    intro r hr
    unfold Lane.resetRaised at hr
    split at hr
    · cases hr
    · cases hr
      exact ⟨hw.1, hw.2.1, hw.2.2.1, hw.2.2.2.2.2.1, hw.2.2.2.2.2.2.1, clearGuarded_withdraw k _⟩
  unfold Lane.lowerReset at h
  cases hb : k.barrier <;> simp only [hb] at h
  · cases h
  · cases h
  · exact hraised r h
  · exact hraised r h
  · cases h
  · split at h
    · cases h
    · rename_i hocc
      simp only [Option.some.injEq] at h
      subst h
      generalize hu : (if k.pendingCause (fun _ => true) then k.markCause .withdrawn else k) = u
      have hs : k.sameSite u := by subst hu; split <;> simp [Lane.sameSite, Lane.markCause]
      have hk : u.count = k.count ∧ u.mark = k.mark := by subst hu; split <;> simp [Lane.markCause]
      obtain ⟨h1, ⟨_, c2, c3, _, _⟩, h3, h4, _⟩ := enterLowering_spec u
      refine ⟨Lane.sameSite_trans hs h1, c3.trans hk.1, c2.trans hk.2, h3, h4, fun _ => ?_⟩
      exact clearGuarded_enterLowering u (by rw [hs.2.2.2.1]; simpa using hocc)

end Sys2Proof.Machine
end

