-- ==== Sys2Proof/Laws/Flags.lean ====
section
/-! SUPPORT. Small lemmas about the deck arithmetic: the newest of a list, the window, the clamp, a sample's fields. -/

namespace Sys2Proof.Machine

theorem newest_length {α : Type} (n : Nat) (l : List α) : (newest n l).length = min n l.length := by
  simp [newest]
  omega

theorem newest_of_short {α : Type} (n : Nat) (l : List α) (h : l.length ≤ n) : newest n l = l := by
  have : l.length - n = 0 := by omega
  simp [newest, this]

/-- R18: the window with a new sum is the newest 2^k of the sums. -/
theorem pushWindow_eq (k : Nat) (w : List Int) (g : Int) : pushWindow k w g = newest (2 ^ k) (w ++ [g]) := by
  have hk : 1 ≤ 2 ^ k := Nat.one_le_two_pow
  unfold pushWindow newest
  split
  · have : (w ++ [g]).length - 2 ^ k = 0 := by simp; omega
    rw [this]
    rfl
  · have e : (w ++ [g]).length - 2 ^ k = w.length + 1 - 2 ^ k := by simp
    rw [e, List.drop_append_of_le_length (by omega)]

/-- A value held within plus and minus a limit that is not negative. -/
theorem clampTo_spec (limit x : Int) (h : 0 ≤ limit) :
    (-limit ≤ clampTo limit x ∧ clampTo limit x ≤ limit) ∧ (-limit ≤ x → x ≤ limit → clampTo limit x = x) ∧
      (limit < x → clampTo limit x = limit) ∧ (x < -limit → clampTo limit x = -limit) := by
  unfold clampTo
  refine ⟨?_, ?_, ?_, ?_⟩
  · split
    · omega
    · split <;> omega
  · intro h1 h2
    rw [if_neg (by omega), if_neg (by omega)]
  · intro h1
    rw [if_pos h1]
  · intro h1
    rw [if_neg (by omega), if_pos h1]

/-- A rounding of 0 is 0, and roundings change sign with the number. -/
theorem roundDiv_zero (b : Nat) (h : 0 < b) : roundDiv 0 b = 0 := by
  have : b / (2 * b) = 0 := Nat.div_eq_of_lt (by omega)
  simp [roundDiv, this]

/-- A multiple of the divisor is exact. -/
theorem roundDiv_multiple (n b : Nat) (h : 0 < b) : roundDiv (n * b) b = n := by
  have h0 : ¬((n : Int) * b < 0) := by
    have : (0 : Int) ≤ (n : Int) * b := by positivity
    omega
  have e : ((n : Int) * b).natAbs = n * b := by
    rw [Int.natAbs_mul]; simp
  unfold roundDiv
  rw [if_neg h0, e]
  congr 1
  have : 2 * (n * b) + b = b + 2 * b * n := by ring
  rw [this, Nat.add_mul_div_left _ _ (by omega), Nat.div_eq_of_lt (by omega)]
  simp

/-- R22: the reported weight of a current weight, and R21's precedence. -/
theorem weigh_spec (u : DeckSetup) (zd : Int) (ms : List Channel) (a : Int) :
    (weigh u zd ms a).a = a ∧ (weigh u zd ms a).wf = a - zd ∧
      ((weigh u zd ms a).isOver = true → (weigh u zd ms a).isUnder = false ∧
        (weigh u zd ms a).reported = u.overLimit) ∧
      ((weigh u zd ms a).isUnder = true → (weigh u zd ms a).reported = u.underLimit) ∧
      ((weigh u zd ms a).isOver = false → (weigh u zd ms a).isUnder = false →
        (weigh u zd ms a).reported = indicated u.e (a - zd)) := by
  refine ⟨rfl, rfl, fun h => ?_, fun h => ?_, fun h1 h2 => ?_⟩
  · have h' : isOverload u (indicated u.e (a - zd)) ms = true := h
    exact ⟨by simp [weigh, isUnderload, h'], by simp [weigh, reportedWeight, h']⟩
  · have h' : isUnderload u (indicated u.e (a - zd)) ms = true := h
    have h'' : isOverload u (indicated u.e (a - zd)) ms = false := by
      simp [isUnderload] at h'
      exact h'.2
    simp [weigh, reportedWeight, h', h'']
  · have h1' : isOverload u (indicated u.e (a - zd)) ms = false := h1
    have h2' : isUnderload u (indicated u.e (a - zd)) ms = false := h2
    simp [weigh, reportedWeight, h1', h2']

/-- The members of a deck are the channels at its members' numbers. -/
theorem mem_memberIds (s : State) (d : DeckId) (c : ChanId) :
    c ∈ s.memberIds d ↔ (s.chan c).memberOf d = true := by
  simp [State.memberIds, allChans]

theorem mem_members (s : State) (d : DeckId) (ch : Channel) :
    ch ∈ s.members d ↔ ∃ c, s.chan c = ch ∧ ch.memberOf d = true := by
  unfold State.members State.chan
  rw [List.mem_filter]
  constructor
  · rintro ⟨h, h'⟩
    rw [Vector.mem_toList_iff, Vector.mem_iff_getElem] at h
    obtain ⟨i, hi, e⟩ := h
    exact ⟨⟨i, hi⟩, e, h'⟩
  · rintro ⟨c, e, h'⟩
    refine ⟨?_, h'⟩
    rw [Vector.mem_toList_iff, Vector.mem_iff_getElem]
    exact ⟨c.val, c.isLt, e⟩

end Sys2Proof.Machine
end

