-- ==== Sys2Proof/Laws/Links.lean ====
section
/-! SUPPORT. What an offered notice can do to a link: the line's own fields stay, the notice is told and stays told, the
queue keeps its bounds; and what a change of the links by offers alone keeps (OffersOnly). -/

namespace Sys2Proof.Machine

/-! ### Transmitter start -/

/-- Everything `kick` can do: nothing, start the first reply, or start the oldest notice. -/
theorem kick_cases (k : LinkState) :
    k.kick = k ∨
      (k.tx = none ∧ ∃ r rs, k.replies = r :: rs ∧ k.kick = { k with tx := some (.reply r), replies := rs }) ∨
      (k.tx = none ∧ k.replies = [] ∧ ∃ n q, k.queue = n :: q ∧
        k.kick = { k with
          tx := some (.notice n), queue := if k.overrun then q ++ [.overrun] else q, overrun := false }) := by
  unfold LinkState.kick
  split
  · exact Or.inl rfl
  · rename_i h
    have htx : k.tx = none := by
      cases hk : k.tx with
      | none => rfl
      | some x => simp [hk] at h
    split
    · rename_i r rs hr
      exact Or.inr (Or.inl ⟨htx, r, rs, hr, rfl⟩)
    · rename_i hr
      split
      · rename_i n q hq
        exact Or.inr (Or.inr ⟨htx, hr, n, q, hq, rfl⟩)
      · exact Or.inl rfl

theorem kick_of_sending (k : LinkState) (h : k.tx.isSome = true) : k.kick = k := by
  simp [LinkState.kick, h]

theorem kick_of_awaiting (k : LinkState) (h : k.awaiting = true) : k.kick = k := by
  simp [LinkState.kick, h]

@[simp] theorem kick_speed (k : LinkState) : k.kick.speed = k.speed := by
  rcases kick_cases k with h | ⟨_, r, rs, _, h⟩ | ⟨_, _, n, q, _, h⟩ <;> simp [h]

@[simp] theorem kick_role (k : LinkState) : k.kick.role = k.role := by
  rcases kick_cases k with h | ⟨_, r, rs, _, h⟩ | ⟨_, _, n, q, _, h⟩ <;> simp [h]

@[simp] theorem kick_mask (k : LinkState) : k.kick.mask = k.mask := by
  rcases kick_cases k with h | ⟨_, r, rs, _, h⟩ | ⟨_, _, n, q, _, h⟩ <;> simp [h]

@[simp] theorem kick_rx (k : LinkState) : k.kick.rx = k.rx := by
  rcases kick_cases k with h | ⟨_, r, rs, _, h⟩ | ⟨_, _, n, q, _, h⟩ <;> simp [h]

@[simp] theorem kick_request (k : LinkState) : k.kick.request = k.request := by
  rcases kick_cases k with h | ⟨_, r, rs, _, h⟩ | ⟨_, _, n, q, _, h⟩ <;> simp [h]

/-- A reply that waits is waiting or going out after a start. -/
theorem kick_reply (k : LinkState) (r : Reply) (h : r ∈ k.replies) :
    r ∈ k.kick.replies ∨ k.kick.tx = some (.reply r) := by
  rcases kick_cases k with h' | ⟨_, x, rs, hr, h'⟩ | ⟨_, hr, _⟩
  · rw [h']; exact Or.inl h
  · rw [hr] at h
    rcases List.mem_cons.mp h with e | e
    · right; simp [h', e]
    · left; simp [h', e]
  · rw [hr] at h; cases h

/-! ### Queues -/

/-- Everything `join` can do (R178). -/
theorem join_cases (k : LinkState) (n : Notice) :
    (k.queue.length < 24 ∧ k.join n = { k with queue := k.queue ++ [n] }) ∨
      (24 ≤ k.queue.length ∧ ∃ b, k.join n = { k with overrun := b } ∧
        (b = true ∨ k.queue.getLast? = some .overrun ∧ b = k.overrun)) := by
  unfold LinkState.join
  by_cases h : k.queue.length < 24
  · left; simp [h]
  · right
    refine ⟨by omega, _, by simp [h]; rfl, ?_⟩
    by_cases hl : k.queue.getLast? = some .overrun <;> simp [hl]

/-- A merge keeps the length of the queue and, at each place, the lane a word belongs to. -/
theorem mergeWord_map (w : StatusWord) (q q' : List Notice) (h : mergeWord w q = some q') (n : LaneId) :
    q'.map (Notice.isWordOf n) = q.map (Notice.isWordOf n) := by
  induction q generalizing q' with
  | nil => simp [mergeWord] at h
  | cons x q ih =>
    cases x with
    | laneStatus w' =>
      simp only [mergeWord] at h
      split at h
      · rename_i hw
        simp only [Option.some.injEq] at h
        subst h
        simp [Notice.isWordOf, hw]
      · simp only [Option.map_eq_some_iff] at h
        obtain ⟨a, ha, rfl⟩ := h
        simp [ih a ha]
    | _ =>
      simp only [mergeWord, Option.map_eq_some_iff] at h
      obtain ⟨a, ha, rfl⟩ := h
      simp [ih a ha]

theorem mergeWord_length (w : StatusWord) (q q' : List Notice) (h : mergeWord w q = some q') :
    q'.length = q.length := by
  have := congrArg List.length (mergeWord_map w q q' h 0)
  simpa using this

/-- A merge finds no word exactly where the queue holds none of the lane. -/
theorem mergeWord_none (w : StatusWord) (q : List Notice) :
    mergeWord w q = none ↔ ∀ x ∈ q, x.isWordOf w.lane = false := by
  induction q with
  | nil => simp [mergeWord]
  | cons x q ih =>
    cases x with
    | laneStatus w' =>
      simp only [mergeWord]
      by_cases hw : w'.lane = w.lane
      · simp [hw, Notice.isWordOf]
      · simp [hw, Notice.isWordOf, ih]
    | _ => simp [mergeWord, Notice.isWordOf, ih]

/-- A merge replaces the word of its lane, the first one if there were several. -/
theorem mergeWord_at (w w' : StatusWord) (a b : List Notice) (hw : w'.lane = w.lane)
    (ha : ∀ x ∈ a, x.isWordOf w.lane = false) :
    mergeWord w (a ++ .laneStatus w' :: b) = some (a ++ .laneStatus w :: b) := by
  induction a with
  | nil => simp [mergeWord, hw]
  | cons x a ih =>
    have ih' := ih (fun y hy => ha y (List.mem_cons_of_mem _ hy))
    have hx := ha x List.mem_cons_self
    cases x with
    | laneStatus v =>
      have hv : v.lane ≠ w.lane := by simpa [Notice.isWordOf] using hx
      simp [mergeWord, hv, ih']
    | _ => simp [mergeWord, ih']

/-- A notice that is no LANE_STATUS stands in a merged queue as it stood before. -/
theorem mergeWord_mem (w : StatusWord) (q q' : List Notice) (h : mergeWord w q = some q') (n : Notice)
    (hn : ∀ v, n ≠ .laneStatus v) (hq : n ∈ q) : n ∈ q' := by
  induction q generalizing q' with
  | nil => cases hq
  | cons x q ih =>
    cases x with
    | laneStatus w' =>
      have hq' : n ∈ q := (List.mem_cons.mp hq).resolve_left (hn w')
      simp only [mergeWord] at h
      split at h
      · simp only [Option.some.injEq] at h
        subst h
        exact List.mem_cons_of_mem _ hq'
      · simp only [Option.map_eq_some_iff] at h
        obtain ⟨a, ha, rfl⟩ := h
        exact List.mem_cons_of_mem _ (ih a ha hq')
    | _ =>
      simp only [mergeWord, Option.map_eq_some_iff] at h
      obtain ⟨a, ha, rfl⟩ := h
      rcases List.mem_cons.mp hq with e | e
      · exact e ▸ List.mem_cons_self
      · exact List.mem_cons_of_mem _ (ih a ha e)

/-- Everything an enqueuing can do (R177, R178): the queue or the overrun mark. -/
theorem enqueue_eq (k : LinkState) (n : Notice) :
    (∃ w q, n = .laneStatus w ∧ mergeWord w k.queue = some q ∧ k.enqueue n = { k with queue := q }) ∨
      ((∀ w, n = .laneStatus w → mergeWord w k.queue = none) ∧ k.enqueue n = k.join n) := by
  cases n with
  | laneStatus w =>
    cases h : mergeWord w k.queue with
    | none => exact Or.inr ⟨fun v e => by cases e; exact h, by simp [LinkState.enqueue, h]⟩
    | some q => exact Or.inl ⟨w, q, rfl, h, by simp [LinkState.enqueue, h]⟩
  | _ => exact Or.inr ⟨fun v e => Notice.noConfusion e, rfl⟩

/-- An enqueuing touches the queue and the overrun mark only. -/
theorem enqueue_frame (k : LinkState) (n : Notice) :
    k.enqueue n = { k with queue := (k.enqueue n).queue, overrun := (k.enqueue n).overrun } := by
  rcases enqueue_eq k n with ⟨_, _, _, _, h⟩ | ⟨_, h⟩
  · rw [h]
  · rcases join_cases k n with ⟨_, h'⟩ | ⟨_, b, h', _⟩ <;> rw [h, h']

@[simp] theorem enqueue_speed (k : LinkState) (n : Notice) : (k.enqueue n).speed = k.speed := by rw [enqueue_frame]
@[simp] theorem enqueue_role (k : LinkState) (n : Notice) : (k.enqueue n).role = k.role := by rw [enqueue_frame]
@[simp] theorem enqueue_mask (k : LinkState) (n : Notice) : (k.enqueue n).mask = k.mask := by rw [enqueue_frame]
@[simp] theorem enqueue_rx (k : LinkState) (n : Notice) : (k.enqueue n).rx = k.rx := by rw [enqueue_frame]
@[simp] theorem enqueue_request (k : LinkState) (n : Notice) : (k.enqueue n).request = k.request := by
  rw [enqueue_frame]
@[simp] theorem enqueue_replies (k : LinkState) (n : Notice) : (k.enqueue n).replies = k.replies := by
  rw [enqueue_frame]
@[simp] theorem enqueue_tx (k : LinkState) (n : Notice) : (k.enqueue n).tx = k.tx := by rw [enqueue_frame]

/-! ### Offers: the line's own fields stay -/

@[simp] theorem offer_speed (k : LinkState) (n : Notice) : (k.offer n).speed = k.speed := by
  unfold LinkState.offer; split <;> simp

@[simp] theorem offer_role (k : LinkState) (n : Notice) : (k.offer n).role = k.role := by
  unfold LinkState.offer; split <;> simp

@[simp] theorem offer_mask (k : LinkState) (n : Notice) : (k.offer n).mask = k.mask := by
  unfold LinkState.offer; split <;> simp

@[simp] theorem offer_rx (k : LinkState) (n : Notice) : (k.offer n).rx = k.rx := by
  unfold LinkState.offer; split <;> simp

@[simp] theorem offer_request (k : LinkState) (n : Notice) : (k.offer n).request = k.request := by
  unfold LinkState.offer; split <;> simp

@[simp] theorem offer_takes (k : LinkState) (n m : Notice) : (k.offer n).takes m = k.takes m := by
  simp [LinkState.takes]

/-- While a request is being handled, an offer starts nothing and keeps the replies. -/
theorem offer_awaiting (k : LinkState) (n : Notice) (h : k.awaiting = true) :
    (k.offer n).tx = k.tx ∧ (k.offer n).replies = k.replies := by
  unfold LinkState.offer
  split
  · rw [kick_of_awaiting]
    · simp
    · simpa [LinkState.awaiting] using h
  · exact ⟨rfl, rfl⟩

/-- The traffic of a link with its station stays under an offer. -/
theorem sameTraffic_offer (k k' : LinkState) (n : Notice) (h : k.sameTraffic k')
    (hs : k.tx.isSome = true → k'.tx.isSome = true) :
    k.sameTraffic (k'.offer n) ∧ (k.tx.isSome = true → (k'.offer n).tx.isSome = true) := by
  obtain ⟨h1, h2, h3⟩ := h
  unfold LinkState.offer
  split
  · rcases kick_cases (k'.enqueue n) with e | ⟨ht, r, rs, hr, e⟩ | ⟨ht, hr, x, q, _, e⟩
    · rw [e]
      exact ⟨⟨by simpa using h1, by simpa using h2, by simpa using h3⟩, by simpa using hs⟩
    · rw [e]
      refine ⟨⟨by simpa using h1, by simpa using h2, ?_⟩, fun _ => rfl⟩
      intro hc
      simp only [enqueue_tx] at ht
      simp only [enqueue_replies] at hr
      have := h3 hc
      rcases hc with hc | hc
      · have := hs hc
        simp [ht] at this
      · simp [hr, hc] at this
    · rw [e]
      refine ⟨⟨by simpa using h1, by simpa using h2, ?_⟩, fun _ => rfl⟩
      simpa using h3
  · exact ⟨⟨h1, h2, h3⟩, hs⟩

/-! ### Told, and still told later -/

/-- The notice waits or goes out, or its loss is marked or told. -/
def LinkState.keeps (k : LinkState) (n : Notice) : Prop := k.holds n ∨ k.overrun = true ∨ k.holds .overrun

theorem told_iff (k k' : LinkState) (n : Notice) : k.told k' n ↔ (k.takes n = true → k'.keeps n) := Iff.rfl

/-- A start loses no notice and no mark of a loss. -/
theorem keeps_kick (k : LinkState) (n : Notice) (h : k.keeps n) : k.kick.keeps n := by
  rcases kick_cases k with e | ⟨ht, r, rs, hr, e⟩ | ⟨ht, hr, x, q, hq, e⟩
  · rw [e]; exact h
  · rw [e]
    rcases h with (h | h) | h | (h | h)
    · exact Or.inl (Or.inl h)
    · rw [ht] at h; cases h
    · exact Or.inr (Or.inl h)
    · exact Or.inr (Or.inr (Or.inl h))
    · rw [ht] at h; cases h
  · rw [e]
    by_cases ho : k.overrun = true
    · right; right; left; simp [ho]
    · rcases h with (h | h) | h | (h | h)
      · rw [hq] at h
        rcases List.mem_cons.mp h with e | e
        · left; right; simp [e]
        · left; left; simp [ho, e]
      · rw [ht] at h; cases h
      · exact absurd h ho
      · rw [hq] at h
        rcases List.mem_cons.mp h with e | e
        · right; right; right; simp [e]
        · right; right; left; simp [ho, e]
      · rw [ht] at h; cases h

/-- A joined notice is kept. -/
theorem keeps_join_self (k : LinkState) (n : Notice) : (k.join n).keeps n := by
  rcases join_cases k n with ⟨_, e⟩ | ⟨_, b, e, hb | ⟨hl, _⟩⟩
  · rw [e]; left; left; simp
  · rw [e]; right; left; exact hb
  · rw [e]; right; right; left
    simp only
    exact List.mem_of_getLast? hl

/-- A join keeps what was kept. -/
theorem keeps_join (k : LinkState) (m n : Notice) (h : k.keeps n) : (k.join m).keeps n := by
  rcases join_cases k m with ⟨_, e⟩ | ⟨_, b, e, hb⟩
  · rw [e]
    rcases h with (h | h) | h | (h | h)
    · left; left; exact List.mem_append_left _ h
    · left; right; exact h
    · right; left; exact h
    · right; right; left; exact List.mem_append_left _ h
    · right; right; right; exact h
  · rw [e]
    rcases hb with hb | ⟨hl, _⟩
    · right; left; exact hb
    · right; right; left; exact List.mem_of_getLast? hl

/-- An offer keeps what was kept of every notice but a LANE_STATUS, which may be merged away (R177). -/
theorem keeps_offer (k : LinkState) (m n : Notice) (hn : ∀ w, n ≠ .laneStatus w) (h : k.keeps n) :
    (k.offer m).keeps n := by
  unfold LinkState.offer
  split
  · apply keeps_kick
    rcases enqueue_eq k m with ⟨w, q, _, hq, e⟩ | ⟨_, e⟩
    · rw [e]
      rcases h with (h | h) | h | (h | h)
      · left; left; exact mergeWord_mem w _ _ hq n hn h
      · left; right; exact h
      · right; left; exact h
      · right; right; left; exact mergeWord_mem w _ _ hq .overrun (fun _ e => by cases e) h
      · right; right; right; exact h
    · rw [e]; exact keeps_join k m n h
  · exact h

/-- An offered notice that is no LANE_STATUS is told. -/
theorem told_offer (k : LinkState) (n : Notice) (hn : ∀ w, n ≠ .laneStatus w) : k.told (k.offer n) n := by
  intro ht
  unfold LinkState.offer
  rw [if_pos ht]
  apply keeps_kick
  rcases enqueue_eq k n with ⟨w, _, hw, _⟩ | ⟨_, e⟩
  · exact absurd hw (hn w)
  · rw [e]; exact keeps_join_self k n

/-! ### Bounds of the queue (R173, R177, R178) -/

theorem bounded_kick (k : LinkState) (h : k.bounded) : k.kick.bounded := by
  rcases kick_cases k with e | ⟨_, r, rs, _, e⟩ | ⟨_, _, n, q, hq, e⟩
  · rw [e]; exact h
  · rw [e]; exact h
  · rw [e]
    obtain ⟨h1, h2⟩ := h
    rw [hq] at h1 h2
    simp only [List.length_cons] at h1
    constructor
    · by_cases ho : k.overrun = true <;> simp [ho] <;> omega
    · intro m
      have := h2 m
      rw [List.countP_cons] at this
      by_cases ho : k.overrun = true
      · simp only [ho, if_true, List.countP_append]
        simp only [List.countP_cons, List.countP_nil, Notice.isWordOf]
        simp
        omega
      · simp only [ho]
        simp only [Bool.false_eq_true, if_false]
        omega

theorem bounded_enqueue (k : LinkState) (n : Notice) (h : k.bounded) : (k.enqueue n).bounded := by
  obtain ⟨h1, h2⟩ := h
  rcases enqueue_eq k n with ⟨w, q, _, hq, e⟩ | ⟨hm, e⟩
  · rw [e]
    refine ⟨by simpa [mergeWord_length w _ _ hq] using h1, fun m => ?_⟩
    have hc : ∀ l : List Notice, l.countP (Notice.isWordOf m) = (l.map (Notice.isWordOf m)).countP id := by
      intro l; rw [List.countP_map]; rfl
    show q.countP (Notice.isWordOf m) ≤ 1
    rw [hc, mergeWord_map w _ _ hq, ← hc]
    exact h2 m
  · rw [e]
    rcases join_cases k n with ⟨hl, e'⟩ | ⟨_, b, e', _⟩
    · rw [e']
      refine ⟨by simp; omega, fun m => ?_⟩
      simp only [List.countP_append]
      by_cases hn : n.isWordOf m = true
      · cases n with
        | laneStatus w =>
          have hw : w.lane = m := by simpa [Notice.isWordOf] using hn
          have h0 := (mergeWord_none w k.queue).mp (hm w rfl)
          rw [hw] at h0
          have : k.queue.countP (Notice.isWordOf m) = 0 := by
            rw [List.countP_eq_zero]
            intro x hx
            simp [h0 x hx]
          rw [this]
          simp [List.countP_cons]
          split <;> omega
        | _ => simp [Notice.isWordOf] at hn
      · have := h2 m
        simp [hn]
        omega
    · rw [e']; exact ⟨h1, h2⟩

/-- An offer keeps the bounds of a queue. -/
theorem bounded_offer (k : LinkState) (n : Notice) (h : k.bounded) : (k.offer n).bounded := by
  unfold LinkState.offer
  split
  · exact bounded_kick _ (bounded_enqueue k n h)
  · exact h

/-! ### Links changed by offers alone -/

/-- Every link's state has come about by offers alone. -/
def OffersOnly (ks ks' : Vector LinkState 3) : Prop :=
  ∀ l, ∃ ns : List Notice, ks'.get l = ns.foldl LinkState.offer (ks.get l)

theorem OffersOnly.refl (ks : Vector LinkState 3) : OffersOnly ks ks := fun _ => ⟨[], rfl⟩

theorem OffersOnly.trans {a b c : Vector LinkState 3} (h : OffersOnly a b) (h' : OffersOnly b c) : OffersOnly a c := by
  intro l
  obtain ⟨ns, e⟩ := h l
  obtain ⟨ms, e'⟩ := h' l
  exact ⟨ns ++ ms, by rw [e', e, List.foldl_append]⟩

theorem offersOnly_offerAll (ks : Vector LinkState 3) (n : Notice) : OffersOnly ks (offerAll ks n) :=
  fun l => ⟨[n], by simp [offerAll]⟩

theorem offersOnly_offerOne (ks : Vector LinkState 3) (l : LinkId) (n : Notice) : OffersOnly ks (offerOne ks l n) := by
  intro m
  by_cases h : m = l
  · exact ⟨[n], by subst h; simp [offerOne]⟩
  · exact ⟨[], by simp [offerOne, get_setAt_ne _ _ h]⟩

theorem offersOnly_foldl {α : Type} (f : Vector LinkState 3 → α → Vector LinkState 3)
    (hf : ∀ ks a, OffersOnly ks (f ks a)) (l : List α) (ks : Vector LinkState 3) : OffersOnly ks (l.foldl f ks) := by
  induction l generalizing ks with
  | nil => exact OffersOnly.refl ks
  | cons a l ih => exact (hf ks a).trans (ih (f ks a))

theorem offersOnly_offerEach (ks : Vector LinkState 3) (ns : List (LinkId × Notice)) :
    OffersOnly ks (offerEach ks ns) :=
  offersOnly_foldl (fun ks (p : LinkId × Notice) => offerOne ks p.1 p.2)
    (fun ks p => offersOnly_offerOne ks p.1 p.2) ns ks

/-- A property of links that every offer keeps holds after offers alone. -/
theorem OffersOnly.keep {ks ks' : Vector LinkState 3} (h : OffersOnly ks ks') (P : LinkState → Prop)
    (hP : ∀ k n, P k → P (k.offer n)) (l : LinkId) (h0 : P (ks.get l)) : P (ks'.get l) := by
  obtain ⟨ns, e⟩ := h l
  rw [e]
  clear e
  induction ns generalizing ks with
  | nil => exact h0
  | cons n ns ih =>
    have : ∀ k : LinkState, P k → P (ns.foldl LinkState.offer k) := by
      clear ih h0
      intro k hk
      induction ns generalizing k with
      | nil => exact hk
      | cons m ns ih => exact ih _ (hP _ _ hk)
    exact this _ (hP _ _ h0)

/-- What offers alone keep of a link. -/
theorem OffersOnly.fixed {ks ks' : Vector LinkState 3} (h : OffersOnly ks ks') (l : LinkId) :
    (ks'.get l).speed = (ks.get l).speed ∧ (ks'.get l).role = (ks.get l).role ∧ (ks'.get l).mask = (ks.get l).mask ∧
      (ks'.get l).rx = (ks.get l).rx ∧ (ks'.get l).request = (ks.get l).request := by
  refine h.keep (fun k => k.speed = (ks.get l).speed ∧ k.role = (ks.get l).role ∧ k.mask = (ks.get l).mask ∧
    k.rx = (ks.get l).rx ∧ k.request = (ks.get l).request) ?_ l ⟨rfl, rfl, rfl, rfl, rfl⟩
  intro k n hk
  simpa using hk

theorem OffersOnly.sameTraffic {ks ks' : Vector LinkState 3} (h : OffersOnly ks ks') (l : LinkId) :
    (ks.get l).sameTraffic (ks'.get l) :=
  (h.keep (fun k => (ks.get l).sameTraffic k ∧ ((ks.get l).tx.isSome = true → k.tx.isSome = true))
    (fun k n hk => sameTraffic_offer _ k n hk.1 hk.2) l ⟨⟨rfl, rfl, fun _ => rfl⟩, id⟩).1

theorem OffersOnly.bounded {ks ks' : Vector LinkState 3} (h : OffersOnly ks ks') (l : LinkId)
    (hb : (ks.get l).bounded) : (ks'.get l).bounded :=
  h.keep LinkState.bounded bounded_offer l hb

/-- What was told stays told under later offers. -/
theorem OffersOnly.told {ks ks' : Vector LinkState 3} (h : OffersOnly ks ks') (k : LinkState) (l : LinkId) (n : Notice)
    (hn : ∀ w, n ≠ .laneStatus w) (ht : k.told (ks.get l) n) : k.told (ks'.get l) n :=
  fun hk => h.keep (fun k' => k'.keeps n) (fun k' m => keeps_offer k' m n hn) l (ht hk)

theorem told_offerAll (ks : Vector LinkState 3) (n : Notice) (l : LinkId) (hn : ∀ w, n ≠ .laneStatus w) :
    (ks.get l).told ((offerAll ks n).get l) n := by
  have : (offerAll ks n).get l = (ks.get l).offer n := by simp [offerAll]
  rw [this]
  exact told_offer _ n hn

theorem told_offerOne (ks : Vector LinkState 3) (n : Notice) (l : LinkId) (hn : ∀ w, n ≠ .laneStatus w) :
    (ks.get l).told ((offerOne ks l n).get l) n := by
  have : (offerOne ks l n).get l = (ks.get l).offer n := by simp [offerOne]
  rw [this]
  exact told_offer _ n hn

/-- A link whose earlier state takes the same notices is told as the earlier one. -/
theorem told_of_fixed (k k' k'' : LinkState) (n : Notice) (hr : k'.role = k.role) (hm : k'.mask = k.mask)
    (h : k'.told k'' n) : k.told k'' n := by
  intro ht
  exact h (by simpa [LinkState.takes, hr, hm] using ht)

end Sys2Proof.Machine
end

