-- ==== Sys2Proof/Laws/Frames.lean ====
section
/-! SUPPORT. What the operations of the yard can do to the whole state: YardOnly (the store, the clock, the supplies, the
queue of commands and the records in effect stay, and the links change by offers alone), with one lemma for each shared
operation, and the finer frames of captures, deck changes and the close of an event. -/

namespace Sys2Proof.Machine

/-- An operation of the yard: everything outside it stays, and the links change by offers alone. -/
structure YardOnly (s t : State) : Prop where
  store : t.store = s.store
  clock : t.clock = s.clock
  power : t.power = s.power
  pending : t.pending = s.pending
  freeIndex : t.freeIndex = s.freeIndex
  cal : ∀ c, (t.chan c).cal = (s.chan c).cal
  deckSetup : ∀ d, (t.deck d).setup = (s.deck d).setup ∧ (t.deck d).setupBad = (s.deck d).setupBad
  laneSetup : ∀ n, (t.lane n).setup = (s.lane n).setup ∧ (t.lane n).setupBad = (s.lane n).setupBad
  links : OffersOnly s.links t.links

theorem YardOnly.refl (s : State) : YardOnly s s :=
  ⟨rfl, rfl, rfl, rfl, rfl, fun _ => rfl, fun _ => ⟨rfl, rfl⟩, fun _ => ⟨rfl, rfl⟩, OffersOnly.refl _⟩

theorem YardOnly.trans {a b c : State} (h : YardOnly a b) (h' : YardOnly b c) : YardOnly a c where
  store := h'.store.trans h.store
  clock := h'.clock.trans h.clock
  power := h'.power.trans h.power
  pending := h'.pending.trans h.pending
  freeIndex := h'.freeIndex.trans h.freeIndex
  cal := fun c => (h'.cal c).trans (h.cal c)
  deckSetup := fun d => ⟨(h'.deckSetup d).1.trans (h.deckSetup d).1, (h'.deckSetup d).2.trans (h.deckSetup d).2⟩
  laneSetup := fun n => ⟨(h'.laneSetup n).1.trans (h.laneSetup n).1, (h'.laneSetup n).2.trans (h.laneSetup n).2⟩
  links := h.links.trans h'.links

/-- What an operation of the yard keeps fixed. -/
theorem YardOnly.keepsFixed {s t : State} (h : YardOnly s t) : s.keepsFixed t :=
  ⟨h.store, h.clock, h.power, h.pending, h.freeIndex, h.cal, fun d => (h.deckSetup d).1, h.laneSetup,
    fun l => ⟨(h.links.fixed l).1, (h.links.fixed l).2.1, (h.links.fixed l).2.2.1⟩⟩

/-! ### Updates of one field -/

/-- The register, the units, the journal, and offers. -/
theorem yard_soft (s : State) (r : Register) (u : Vector CaptureUnit 4) (j : Journal) (ks : Vector LinkState 3)
    (h : OffersOnly s.links ks) : YardOnly s { s with register := r, units := u, journal := j, links := ks } :=
  ⟨rfl, rfl, rfl, rfl, rfl, fun _ => rfl, fun _ => ⟨rfl, rfl⟩, fun _ => ⟨rfl, rfl⟩, h⟩

theorem yard_register (s : State) (r : Register) : YardOnly s { s with register := r } :=
  yard_soft s r s.units s.journal s.links (OffersOnly.refl _)

theorem yard_units (s : State) (u : Vector CaptureUnit 4) : YardOnly s { s with units := u } :=
  yard_soft s s.register u s.journal s.links (OffersOnly.refl _)

theorem yard_journal (s : State) (j : Journal) : YardOnly s { s with journal := j } :=
  yard_soft s s.register s.units j s.links (OffersOnly.refl _)

theorem yard_links (s : State) (ks : Vector LinkState 3) (h : OffersOnly s.links ks) : YardOnly s { s with links := ks } :=
  yard_soft s s.register s.units s.journal ks h

theorem yard_offerAll (s : State) (n : Notice) : YardOnly s (s.offerAll n) :=
  yard_links s _ (offersOnly_offerAll _ _)

theorem yard_channels (s : State) (p : Timer) (chs : Vector Channel 16) (h : ∀ c, (chs.get c).cal = (s.chan c).cal) :
    YardOnly s { s with period := p, channels := chs } :=
  ⟨rfl, rfl, rfl, rfl, rfl, h, fun _ => ⟨rfl, rfl⟩, fun _ => ⟨rfl, rfl⟩, OffersOnly.refl _⟩

theorem yard_decks (s : State) (ds : Vector Deck 4)
    (h : ∀ d, (ds.get d).setup = (s.deck d).setup ∧ (ds.get d).setupBad = (s.deck d).setupBad) :
    YardOnly s { s with decks := ds } :=
  ⟨rfl, rfl, rfl, rfl, rfl, fun _ => rfl, h, fun _ => ⟨rfl, rfl⟩, OffersOnly.refl _⟩

theorem yard_lanes (s : State) (ls : Vector Lane 4)
    (h : ∀ n, (ls.get n).setup = (s.lane n).setup ∧ (ls.get n).setupBad = (s.lane n).setupBad) :
    YardOnly s { s with lanes := ls } :=
  ⟨rfl, rfl, rfl, rfl, rfl, fun _ => rfl, fun _ => ⟨rfl, rfl⟩, h, OffersOnly.refl _⟩

theorem yard_setUnit (s : State) (d : DeckId) (u : CaptureUnit) : YardOnly s (s.setUnit d u) := yard_units s _

theorem yard_setChan (s : State) (c : ChanId) (k : Channel) (h : k.cal = (s.chan c).cal) : YardOnly s (s.setChan c k) := by
  refine yard_channels s s.period _ (fun j => ?_)
  rw [get_setAt]
  split
  · rename_i e; rw [h, e]
  · rfl

theorem yard_setDeck (s : State) (d : DeckId) (k : Deck) (h : k.setup = (s.deck d).setup)
    (hb : k.setupBad = (s.deck d).setupBad) : YardOnly s (s.setDeck d k) := by
  refine yard_decks s _ (fun j => ?_)
  rw [get_setAt]
  split
  · rename_i e; exact e ▸ ⟨h, hb⟩
  · exact ⟨rfl, rfl⟩

theorem yard_setLane (s : State) (n : LaneId) (k : Lane) (h : k.setup = (s.lane n).setup)
    (hb : k.setupBad = (s.lane n).setupBad) : YardOnly s (s.setLane n k) := by
  refine yard_lanes s _ (fun j => ?_)
  rw [get_setAt]
  split
  · rename_i e; exact e ▸ ⟨h, hb⟩
  · exact ⟨rfl, rfl⟩

theorem yard_setJlink (s : State) (l : LinkId) (k : JournalLink) : YardOnly s (s.setJlink l k) := yard_journal s _

/-- Operations in turn. -/
theorem yard_foldl {α : Type} (f : State → α → State) (hf : ∀ s a, YardOnly s (f s a)) (l : List α) (s : State) :
    YardOnly s (l.foldl f s) := by
  induction l generalizing s with
  | nil => exact YardOnly.refl s
  | cons a l ih => exact (hf s a).trans (ih (f s a))

/-! ### Lanes -/

/-- A passage handed to the register (R107, R116) changes the register and offers at most one notice. -/
theorem takePassage_frame (n : LaneId) (c : CauseKind) (s : State) :
    takePassage n c s =
      { s with register := (takePassage n c s).register, links := (takePassage n c s).links } ∧
      OffersOnly s.links (takePassage n c s).links := by
  unfold takePassage
  cases c with
  | admitted v => dsimp only; split <;> exact ⟨rfl, (by first | exact offersOnly_offerAll _ _ | exact OffersOnly.refl _)⟩
  | released v => dsimp only; split <;> exact ⟨rfl, (by first | exact offersOnly_offerAll _ _ | exact OffersOnly.refl _)⟩
  | manual => exact ⟨rfl, OffersOnly.refl _⟩
  | safety => exact ⟨rfl, OffersOnly.refl _⟩

theorem yard_takePassage (n : LaneId) (c : CauseKind) (s : State) : YardOnly s (takePassage n c s) := by
  obtain ⟨h, h'⟩ := takePassage_frame n c s
  rw [h]
  exact yard_soft s _ _ _ _ h'

/-- What a lane's operation hands on changes that lane, the register (by a passage) and the links (by offers). -/
theorem applyLane_frame (n : LaneId) (r : LaneStep) (s : State) :
    applyLane n r s =
      { s with
        lanes := setAt s.lanes n r.lane, register := (applyLane n r s).register, links := (applyLane n r s).links } ∧
      OffersOnly s.links (applyLane n r s).links ∧
      (r.passage = none → (applyLane n r s).register = s.register) := by
  have key : ∀ l, OffersOnly s.links l → ∀ s3 : State,
      s3 = (match r.passage with
        | some c => takePassage n c { s with lanes := setAt s.lanes n r.lane, links := l }
        | none => { s with lanes := setAt s.lanes n r.lane, links := l }) →
      ∀ t : State, t = (if r.jammed then s3.offerAll (.laneEvent n .jammed) else s3) →
        t = { s with lanes := setAt s.lanes n r.lane, register := t.register, links := t.links } ∧
          OffersOnly s.links t.links ∧ (r.passage = none → t.register = s.register) := by
    intro l ho s3 e3 t et
    have h3 : s3 = { s with lanes := setAt s.lanes n r.lane, register := s3.register, links := s3.links } ∧
        OffersOnly s.links s3.links ∧ (r.passage = none → s3.register = s.register) := by
      cases hp : r.passage with
      | none =>
        rw [hp] at e3
        subst e3
        exact ⟨rfl, ho, fun _ => rfl⟩
      | some c =>
        rw [hp] at e3
        obtain ⟨g, g'⟩ := takePassage_frame n c { s with lanes := setAt s.lanes n r.lane, links := l }
        subst e3
        exact ⟨g, ho.trans g', fun h => (by cases h)⟩
    obtain ⟨a, b, c⟩ := h3
    by_cases hj : r.jammed = true
    · rw [if_pos hj] at et
      subst et
      refine ⟨?_, b.trans (offersOnly_offerAll _ _), c⟩
      show ({ s3 with links := _ } : State) = _
      rw [a]
      rfl
    · rw [if_neg hj] at et
      subst et
      exact ⟨a, b, c⟩
  by_cases ht : r.tailgate = true
  · refine key (offerAll s.links (.laneEvent n .tailgate)) (offersOnly_offerAll _ _) _ rfl _ ?_
    simp only [applyLane, ht, if_true]
    rfl
  · have ht' : r.tailgate = false := by simpa using ht
    refine key s.links (OffersOnly.refl _) _ rfl _ ?_
    simp only [applyLane, ht']
    rfl

@[simp] theorem applyLane_lane_self (n : LaneId) (r : LaneStep) (s : State) : (applyLane n r s).lane n = r.lane := by
  rw [(applyLane_frame n r s).1]
  exact get_setAt_self _ _ _

theorem applyLane_lane_ne {n m : LaneId} (r : LaneStep) (s : State) (h : m ≠ n) :
    (applyLane n r s).lane m = s.lane m := by
  rw [(applyLane_frame n r s).1]
  exact get_setAt_ne _ _ h

theorem yard_applyLane (n : LaneId) (r : LaneStep) (s : State) (h : (s.lane n).sameSite r.lane) :
    YardOnly s (applyLane n r s) := by
  obtain ⟨e, ho, _⟩ := applyLane_frame n r s
  rw [e]
  exact (yard_setLane s n r.lane h.1 h.2.1).trans (yard_soft (s.setLane n r.lane) _ _ _ _ ho)

/-- JAMMED and TAILGATE are told (R81, R82). -/
theorem applyLane_told (n : LaneId) (r : LaneStep) (s : State) :
    (r.jammed = true → s.tells (applyLane n r s) (.laneEvent n .jammed)) ∧
      (r.tailgate = true → s.tells (applyLane n r s) (.laneEvent n .tailgate)) := by
  have hp : ∀ u : State, OffersOnly u.links
      (match r.passage with | some c => takePassage n c u | none => u).links := by
    intro u
    cases r.passage with
    | none => exact OffersOnly.refl _
    | some c => exact (takePassage_frame n c u).2
  constructor
  · intro hj l
    have : (applyLane n r s).links =
        offerAll (match r.passage with
          | some c => takePassage n c (if r.tailgate then (s.setLane n r.lane).offerAll (.laneEvent n .tailgate) else s.setLane n r.lane)
          | none => (if r.tailgate then (s.setLane n r.lane).offerAll (.laneEvent n .tailgate) else s.setLane n r.lane)).links
          (.laneEvent n .jammed) := by
      simp only [applyLane, hj, if_true]; rfl
    show (s.links.get l).told ((applyLane n r s).links.get l) _
    rw [this]
    generalize hu : (if r.tailgate then (s.setLane n r.lane).offerAll (.laneEvent n .tailgate) else s.setLane n r.lane) = u
    have h1 : OffersOnly s.links u.links := by
      subst hu; split
      · exact offersOnly_offerAll _ _
      · exact OffersOnly.refl _
    have h2 := h1.trans (hp u)
    refine told_of_fixed _ _ _ _ (h2.fixed l).2.1 (h2.fixed l).2.2.1 (told_offerAll _ _ l (fun w e => (by cases e)))
  · intro ht l
    have h1 : (s.links.get l).told ((offerAll s.links (.laneEvent n .tailgate)).get l) (.laneEvent n .tailgate) :=
      told_offerAll _ _ l (fun w e => (by cases e))
    have h2 : OffersOnly (offerAll s.links (.laneEvent n .tailgate)) (applyLane n r s).links := by
      simp only [applyLane, ht, if_true]
      have h3 := hp ((s.setLane n r.lane).offerAll (.laneEvent n .tailgate))
      split
      · exact h3.trans (offersOnly_offerAll _ _)
      · exact h3
    exact h2.told _ l _ (fun w e => (by cases e)) h1

theorem yard_raiseLane (n : LaneId) (c : CauseKind) (s : State) : YardOnly s (raiseLane n c s) :=
  yard_applyLane n _ s (raise_spec _ c).1

/-- R79: a raise changes no register. -/
theorem raiseLane_register (n : LaneId) (c : CauseKind) (s : State) : (raiseLane n c s).register = s.register :=
  (applyLane_frame n _ s).2.2 (raise_spec _ c).2.2.2.2.2.2.2.1

theorem yard_withdrawLane (n : LaneId) (v : Nat) (s : State) : YardOnly s (withdrawLane n v s) :=
  yard_applyLane n _ s (withdraw_spec _ _).1

/-- R86: a withdrawal changes no register. -/
theorem withdrawLane_register (n : LaneId) (v : Nat) (s : State) : (withdrawLane n v s).register = s.register :=
  (applyLane_frame n _ s).2.2 (withdraw_spec _ _).2.2.2.2.2.2.1

theorem yard_raiseIfOccupied (n : LaneId) (c : CauseKind) (s : State) : YardOnly s (raiseIfOccupied n c s) := by
  unfold raiseIfOccupied
  split
  · exact yard_raiseLane n c s
  · exact YardOnly.refl s

theorem raiseIfOccupied_register (n : LaneId) (c : CauseKind) (s : State) :
    (raiseIfOccupied n c s).register = s.register := by
  unfold raiseIfOccupied
  split
  · exact raiseLane_register n c s
  · rfl

/-! ### The journal -/

/-- R158: the judgment of the margin changes the LOW mark and offers at most one notice. -/
theorem judgeLow_frame (s : State) :
    judgeLow s = { s with
      journal := { s.journal with low := decide (s.margin ≤ 16) }, links := (judgeLow s).links } ∧
      OffersOnly s.links (judgeLow s).links := by
  refine ⟨rfl, ?_⟩
  unfold judgeLow
  dsimp only
  split
  · exact offersOnly_offerAll _ _
  · exact OffersOnly.refl _

theorem yard_judgeLow (s : State) : YardOnly s (judgeLow s) := by
  obtain ⟨h, h'⟩ := judgeLow_frame s
  rw [h]
  exact yard_soft s _ _ _ _ h'

/-- R150, R151, R159: a written record changes the journal, and each link is offered at most its GAP. -/
theorem writeRecord_frame (t : Ticket) (s : State) :
    writeRecord t s = { s with journal := (writeRecord t s).journal, links := (writeRecord t s).links } ∧
      OffersOnly s.links (writeRecord t s).links ∧
      (s.journal.counter = none → writeRecord t s = s) ∧
      (∀ num, s.journal.counter = some num → (writeRecord t s).journal = s.journal.place num t) := by
  unfold writeRecord
  cases h : s.journal.counter with
  | none => exact ⟨rfl, OffersOnly.refl _, fun _ => rfl, fun _ e => (by cases e)⟩
  | some num =>
    exact ⟨rfl, offersOnly_offerEach _ _, fun e => (by cases e), fun m e => (by cases e; rfl)⟩

theorem yard_writeRecord (t : Ticket) (s : State) : YardOnly s (writeRecord t s) := by
  obtain ⟨h, h', _⟩ := writeRecord_frame t s
  rw [h]
  exact yard_soft s _ _ _ _ h'

/-- R166: the fills of a link change its place in the journal and offer TICKET notices to it alone. -/
theorem fillLink_frame (l : LinkId) (s : State) :
    fillLink l s = { s with
      journal := { s.journal with links := setAt s.journal.links l ((s.jlink l).fill s.journal.records).1 }
      links := (fillLink l s).links } ∧ OffersOnly s.links (fillLink l s).links :=
  ⟨rfl, offersOnly_offerEach _ _⟩

theorem yard_fillLink (l : LinkId) (s : State) : YardOnly s (fillLink l s) := by
  obtain ⟨h, h'⟩ := fillLink_frame l s
  rw [h]
  exact yard_soft s _ _ _ _ h'

theorem yard_fillAll (s : State) : YardOnly s (fillAll s) := yard_foldl _ (fun s l => yard_fillLink l s) _ s

/-- Fills leave the records, the counter and the LOW mark. -/
theorem fillAll_frame (s : State) :
    fillAll s = { s with
      journal := { s.journal with links := (fillAll s).journal.links }, links := (fillAll s).links } := by
  have key : ∀ (ls : List LinkId) (s : State), ls.foldl (fun s l => fillLink l s) s =
      { s with
        journal := { s.journal with links := (ls.foldl (fun s l => fillLink l s) s).journal.links }
        links := (ls.foldl (fun s l => fillLink l s) s).links } := by
    intro ls
    induction ls with
    | nil => intro s; rfl
    | cons l ls ih =>
      intro s
      simp only [List.foldl_cons]
      rw [ih (fillLink l s)]
      rfl
  exact key allLinks s

/-! ### The register -/

theorem yard_releaseVisit (v : Visit) (s : State) : YardOnly s (releaseVisit v s) :=
  (yard_writeRecord _ s).trans (yard_register _ _)

theorem yard_entryOutcome (n : LaneId) (v : Visit) (o : CapOutcome) (s : State) : YardOnly s (entryOutcome n v o s) := by
  unfold entryOutcome
  split
  · exact (yard_register s _).trans (yard_raiseIfOccupied n _ _)
  · exact yard_soft s _ _ _ _ (offersOnly_offerAll _ _)
  · exact yard_register s _

theorem yard_exitOutcome (n : LaneId) (v : Visit) (o : CapOutcome) (s : State) : YardOnly s (exitOutcome n v o s) := by
  unfold exitOutcome
  split
  · exact ((yard_releaseVisit _ s).trans (yard_raiseIfOccupied n _ _)).trans (yard_fillAll _)
  · exact yard_register s _

theorem yard_handOutcome (n : LaneId) (w : CapOwner) (o : CapOutcome) (s : State) :
    YardOnly s (handOutcome n w o s) := by
  unfold handOutcome
  split
  · split
    · exact YardOnly.refl s
    · split
      · exact yard_entryOutcome _ _ _ s
      · exact YardOnly.refl s
  · split
    · exact YardOnly.refl s
    · split
      · exact yard_exitOutcome _ _ _ s
      · exact YardOnly.refl s
  · exact YardOnly.refl s

/-- A failed outcome changes the register and offers notices; no lane, journal, deck or unit changes. -/
theorem handOutcome_failed (n : LaneId) (w : CapOwner) (why : CapFail) (s : State) :
    handOutcome n w (.failed why) s =
      { s with
        register := (handOutcome n w (.failed why) s).register, links := (handOutcome n w (.failed why) s).links } := by
  unfold handOutcome
  split
  · split
    · rfl
    · split
      · unfold entryOutcome; split <;> first | rfl | (rename_i h; cases h)
      · rfl
  · split
    · rfl
    · split
      · unfold exitOutcome; rfl
      · rfl
  · rfl

/-- Whatever the outcome, the decks, channels and units are left alone. -/
theorem handOutcome_frame (n : LaneId) (w : CapOwner) (o : CapOutcome) (s : State) :
    (handOutcome n w o s).decks = s.decks ∧ (handOutcome n w o s).channels = s.channels ∧
      (handOutcome n w o s).units = s.units ∧ (handOutcome n w o s).period = s.period ∧
      ∀ m, m ≠ n → (handOutcome n w o s).lane m = s.lane m := by
  have hraise : ∀ (c : CauseKind) (u : State), (raiseIfOccupied n c u).decks = u.decks ∧
      (raiseIfOccupied n c u).channels = u.channels ∧ (raiseIfOccupied n c u).units = u.units ∧
      (raiseIfOccupied n c u).period = u.period ∧ ∀ m, m ≠ n → (raiseIfOccupied n c u).lane m = u.lane m := by
    intro c u
    unfold raiseIfOccupied raiseLane
    split
    · refine ⟨?_, ?_, ?_, ?_, fun m hm => applyLane_lane_ne _ _ hm⟩ <;> rw [(applyLane_frame n _ u).1]
    · exact ⟨rfl, rfl, rfl, rfl, fun _ _ => rfl⟩
  have hwrite : ∀ (t : Ticket) (u : State), (writeRecord t u).decks = u.decks ∧
      (writeRecord t u).channels = u.channels ∧ (writeRecord t u).units = u.units ∧
      (writeRecord t u).period = u.period ∧ (writeRecord t u).lanes = u.lanes := by
    intro t u
    refine ⟨?_, ?_, ?_, ?_, ?_⟩ <;> rw [(writeRecord_frame t u).1]
  cases o with
  | failed why =>
    rw [handOutcome_failed]
    exact ⟨rfl, rfl, rfl, rfl, fun _ _ => rfl⟩
  | done r =>
    unfold handOutcome
    split
    · split
      · exact ⟨rfl, rfl, rfl, rfl, fun _ _ => rfl⟩
      · split
        · exact hraise _ _
        · exact ⟨rfl, rfl, rfl, rfl, fun _ _ => rfl⟩
    · split
      · exact ⟨rfl, rfl, rfl, rfl, fun _ _ => rfl⟩
      · split
        · rename_i x _ _
          unfold exitOutcome
          dsimp only
          obtain ⟨a1, a2, a3, a4, a5⟩ := hraise (.released x.number) (releaseVisit (x.weighedOut r) s)
          obtain ⟨b1, b2, b3, b4, b5⟩ := hwrite ((x.weighedOut r).releaseTicket s.clock.time) s
          refine ⟨?_, ?_, ?_, ?_, fun m hm => ?_⟩
          · rw [fillAll_frame]; exact a1.trans b1
          · rw [fillAll_frame]; exact a2.trans b2
          · rw [fillAll_frame]; exact a3.trans b3
          · rw [fillAll_frame]; exact a4.trans b4
          · rw [fillAll_frame]
            refine (a5 m hm).trans ?_
            show ((writeRecord _ s).lanes).get m = s.lanes.get m
            rw [b5]
        · exact ⟨rfl, rfl, rfl, rfl, fun _ _ => rfl⟩
    · exact ⟨rfl, rfl, rfl, rfl, fun _ _ => rfl⟩

/-! ### Captures -/

theorem offersOnly_offerCapture (d : DeckId) (w : CapOwner) (o : CapOutcome) (ks : Vector LinkState 3) :
    OffersOnly ks (offerCapture d w o ks) := by
  unfold offerCapture
  split
  · exact offersOnly_offerOne _ _ _
  · exact offersOnly_offerAll _ _
  · exact offersOnly_offerAll _ _

theorem yard_endCapture (d : DeckId) (o : CapOutcome) (s : State) : YardOnly s (endCapture d o s) := by
  unfold endCapture
  split
  · exact YardOnly.refl s
  · rename_i c _
    exact (yard_soft s s.register (setAt s.units d ((s.unit d).ended c o)) s.journal _
      (offersOnly_offerCapture d c.owner o s.links)).trans (yard_handOutcome _ _ _ _)

/-- What the end of a capture leaves: the unit IDLE; decks, channels, the other units and the other lanes as they were. -/
theorem endCapture_frame (d : DeckId) (o : CapOutcome) (s : State) :
    ((endCapture d o s).unit d).cap = none ∧ (endCapture d o s).decks = s.decks ∧
      (endCapture d o s).channels = s.channels ∧ (endCapture d o s).period = s.period ∧
      (∀ e, e ≠ d → (endCapture d o s).unit e = s.unit e) ∧
      (∀ n, n ≠ d → (endCapture d o s).lane n = s.lane n) ∧
      ((s.unit d).cap = none → endCapture d o s = s) ∧
      (∀ c, (s.unit d).cap = some c → (endCapture d o s).unit d = (s.unit d).ended c o) := by
  unfold endCapture
  cases h : (s.unit d).cap with
  | none => exact ⟨h, rfl, rfl, rfl, fun _ _ => rfl, fun _ _ => rfl, fun _ => rfl, fun _ e => (by cases e)⟩
  | some c =>
    dsimp only
    obtain ⟨a1, a2, a3, a4, a5⟩ := handOutcome_frame d c.owner o
      { s with units := setAt s.units d ((s.unit d).ended c o), links := offerCapture d c.owner o s.links }
    have hu : ∀ e, (handOutcome d c.owner o
        { s with units := setAt s.units d ((s.unit d).ended c o), links := offerCapture d c.owner o s.links }).unit e =
        (setAt s.units d ((s.unit d).ended c o)).get e := by
      intro e
      show (Vector.get _ e) = _
      rw [a3]
    refine ⟨?_, a1, a2, a4, fun e he => ?_, fun n hn => a5 n hn, fun e => (by cases e), fun c' e => ?_⟩
    · rw [hu, get_setAt_self]; rfl
    · rw [hu, get_setAt_ne _ _ he]; rfl
    · cases e; rw [hu, get_setAt_self]

/-- A failed capture leaves lanes and journal alone too. -/
theorem endCapture_failed (d : DeckId) (why : CapFail) (s : State) :
    (endCapture d (.failed why) s).lanes = s.lanes ∧ (endCapture d (.failed why) s).journal = s.journal := by
  unfold endCapture
  cases h : (s.unit d).cap with
  | none => exact ⟨rfl, rfl⟩
  | some c =>
    dsimp only
    rw [handOutcome_failed]
    exact ⟨rfl, rfl⟩

/-- R66: the outcome is told, to every link or to the link that asked. -/
theorem endCapture_told (d : DeckId) (o : CapOutcome) (s : State) (c : Capture) (h : (s.unit d).cap = some c) :
    (c.owner.kind ≠ .spot → s.tells (endCapture d o s) (.capture d c.owner o)) ∧
      ∀ l, c.owner = .spot l → (s.link l).told ((endCapture d o s).link l) (.capture d c.owner o) := by
  have hlater : OffersOnly (offerCapture d c.owner o s.links) (endCapture d o s).links := by
    unfold endCapture
    rw [h]
    exact (yard_handOutcome d c.owner o _).links
  constructor
  · intro hk l
    refine hlater.told _ l _ (fun w e => (by cases e)) ?_
    have : offerCapture d c.owner o s.links = offerAll s.links (.capture d c.owner o) := by
      unfold offerCapture
      cases ho : c.owner with
      | spot l => rw [ho] at hk; exact absurd rfl hk
      | visitIn v => rfl
      | visitOut v => rfl
    rw [this]
    exact told_offerAll _ _ l (fun w e => (by cases e))
  · intro l hl
    refine hlater.told _ l _ (fun w e => (by cases e)) ?_
    have : offerCapture d c.owner o s.links = offerOne s.links l (.capture d c.owner o) := by
      unfold offerCapture
      rw [hl]
    rw [this]
    exact told_offerOne _ _ l (fun w e => (by cases e))

theorem yard_endVisitCapture (d : DeckId) (v : Nat) (s : State) : YardOnly s (endVisitCapture d v s) := by
  unfold endVisitCapture
  split
  · exact YardOnly.refl s
  · split
    · exact yard_endCapture _ _ s
    · exact YardOnly.refl s

/-! ### Deck changes -/

/-- R29: entry to a state keeps setup, SETUP_BAD, the service mark, Zd, ZERO_LIMIT, the wake mask and a ZERO_CAL. -/
theorem entered_frame (k : Deck) (new : DeckState) (cause : WakeCause) :
    (k.entered new cause).state = new ∧ (k.entered new cause).excitation = new.excited ∧
      (k.entered new cause).setup = k.setup ∧ (k.entered new cause).setupBad = k.setupBad ∧
      (k.entered new cause).service = k.service ∧ (k.entered new cause).zd = k.zd ∧
      (k.entered new cause).zeroLimit = k.zeroLimit ∧
      (k.entered new cause).zeroLimitAtSample = k.zeroLimitAtSample ∧
      (k.entered new cause).wakeMask = k.wakeMask ∧ (k.entered new cause).zeroCal = k.zeroCal ∧
      (k.entered new cause).empty = k.empty ∧ (k.entered new cause).idle = none ∧
      (emptiesOn k.state new = true → (k.entered new cause).window = [] ∧ (k.entered new cause).count = 0 ∧
        (k.entered new cause).history = [] ∧ (k.entered new cause).current = none) ∧
      (emptiesOn k.state new = false → (k.entered new cause).window = k.window ∧
        (k.entered new cause).count = k.count ∧ (k.entered new cause).history = k.history ∧
        (k.entered new cause).stable = k.stable) := by
  unfold Deck.entered
  cases new with
  | unused => simp [Deck.quiet, emptiesOn]
  | sleep => simp [Deck.quiet, emptiesOn]
  | fault => simp [Deck.quiet, emptiesOn]
  | warming => simp [Deck.quiet, Deck.emptied, emptiesOn]
  | active => by_cases h : emptiesOn k.state .active = true <;> simp [Deck.quiet, Deck.emptied, h]
  | service => by_cases h : emptiesOn k.state .service = true <;> simp [Deck.quiet, Deck.emptied, h]

theorem onDeckChange_frame (old new : DeckState) (ch : Channel) :
    (ch.onDeckChange old new).cal = ch.cal ∧ (ch.onDeckChange old new).raw = ch.raw ∧
      (ch.onDeckChange old new).saturation = ch.saturation ∧ (ch.onDeckChange old new).answered = ch.answered ∧
      ((ch.onDeckChange old new).lost = true → ch.lost = true) := by
  unfold Channel.onDeckChange
  split
  · simp [Channel.unsupervise]
  · split <;> simp [Channel.emptied]

/-- The members of one deck changed, read at one channel. -/
theorem get_mapMembers (d : DeckId) (f : Channel → Channel) (chs : Vector Channel 16) (c : ChanId) :
    (mapMembers d f chs).get c = if (chs.get c).memberOf d then f (chs.get c) else chs.get c := by
  simp [mapMembers]

theorem yard_enterDeck (d : DeckId) (new : DeckState) (cause : WakeCause) (s : State) :
    YardOnly s (enterDeck d new cause s) := by
  refine YardOnly.trans (b := { s with channels := mapMembers d (Channel.onDeckChange (s.deck d).state new) s.channels })
    (yard_channels s s.period _ (fun c => ?_)) ?_
  · rw [get_mapMembers]
    split
    · exact (onDeckChange_frame _ _ _).1
    · rfl
  · exact yard_setDeck _ d _ (entered_frame _ _ _).2.2.1 (entered_frame _ _ _).2.2.2.1

theorem yard_startTimeout (d : DeckId) (s : State) : YardOnly s (startTimeout d s) := by
  unfold startTimeout
  split
  · exact YardOnly.refl s
  · split
    · exact YardOnly.refl s
    · exact yard_setUnit s d _

theorem yard_onDeckState (d : DeckId) (new : DeckState) (s : State) : YardOnly s (onDeckState d new s) := by
  unfold onDeckState
  split <;> first | exact yard_startTimeout _ s | exact yard_endCapture _ _ s | exact YardOnly.refl s

theorem yard_deckChange (d : DeckId) (new : DeckState) (cause : WakeCause) (s : State) :
    YardOnly s (deckChange d new cause s) :=
  (yard_enterDeck d new cause s).trans (yard_onDeckState d new _)

/-- A capture unit told of a deck state: decks, channels, the other units, every lane and the journal stay. -/
theorem onDeckState_frame (d : DeckId) (new : DeckState) (s : State) :
    (onDeckState d new s).decks = s.decks ∧ (onDeckState d new s).channels = s.channels ∧
      (onDeckState d new s).period = s.period ∧ (onDeckState d new s).lanes = s.lanes ∧
      (onDeckState d new s).journal = s.journal ∧ ∀ e, e ≠ d → (onDeckState d new s).unit e = s.unit e := by
  have hend : ∀ why, (endCapture d (.failed why) s).decks = s.decks ∧
      (endCapture d (.failed why) s).channels = s.channels ∧ (endCapture d (.failed why) s).period = s.period ∧
      (endCapture d (.failed why) s).lanes = s.lanes ∧ (endCapture d (.failed why) s).journal = s.journal ∧
      ∀ e, e ≠ d → (endCapture d (.failed why) s).unit e = s.unit e := by
    intro why
    obtain ⟨_, h2, h3, h4, h5, _⟩ := endCapture_frame d (.failed why) s
    exact ⟨h2, h3, h4, (endCapture_failed d why s).1, (endCapture_failed d why s).2, h5⟩
  have htime : (startTimeout d s).decks = s.decks ∧ (startTimeout d s).channels = s.channels ∧
      (startTimeout d s).period = s.period ∧ (startTimeout d s).lanes = s.lanes ∧
      (startTimeout d s).journal = s.journal ∧ ∀ e, e ≠ d → (startTimeout d s).unit e = s.unit e := by
    unfold startTimeout
    split
    · exact ⟨rfl, rfl, rfl, rfl, rfl, fun _ _ => rfl⟩
    · split
      · exact ⟨rfl, rfl, rfl, rfl, rfl, fun _ _ => rfl⟩
      · exact ⟨rfl, rfl, rfl, rfl, rfl, fun e he => setUnit_unit_ne s _ he⟩
  unfold onDeckState
  cases new <;> first | exact hend _ | exact htime | exact ⟨rfl, rfl, rfl, rfl, rfl, fun _ _ => rfl⟩

/-- R28, R29, R60: what a change of deck state does, and leaves. -/
theorem deckChange_frame (d : DeckId) (new : DeckState) (cause : WakeCause) (s : State) :
    (deckChange d new cause s).deck d = (s.deck d).entered new cause ∧
      (∀ e, e ≠ d → (deckChange d new cause s).deck e = s.deck e) ∧
      (deckChange d new cause s).channels =
        mapMembers d (Channel.onDeckChange (s.deck d).state new) s.channels ∧
      (deckChange d new cause s).period = s.period ∧ (deckChange d new cause s).lanes = s.lanes ∧
      (deckChange d new cause s).journal = s.journal ∧
      ∀ e, e ≠ d → (deckChange d new cause s).unit e = s.unit e := by
  obtain ⟨h1, h2, h3, h4, h5, h6⟩ := onDeckState_frame d new (enterDeck d new cause s)
  have hd : ∀ e, (deckChange d new cause s).deck e = (enterDeck d new cause s).deck e := by
    intro e; show Vector.get _ e = Vector.get _ e; rw [deckChange, h1]
  refine ⟨?_, fun e he => ?_, h2, h3, h4, h5, h6⟩
  · rw [hd]; exact get_setAt_self _ _ _
  · rw [hd]; exact get_setAt_ne _ _ he

theorem yard_leaveFault (d : DeckId) (s : State) : YardOnly s (leaveFault d s) := by
  unfold leaveFault
  split
  · exact yard_deckChange _ _ _ s
  · exact YardOnly.refl s

theorem yard_enterFault (d : DeckId) (s : State) : YardOnly s (enterFault d s) := by
  unfold enterFault
  split
  · exact yard_deckChange _ _ _ s
  · exact YardOnly.refl s

theorem yard_deckLoopEvent (d : DeckId) (i : LoopId) (b : Bool) (s : State) : YardOnly s (deckLoopEvent d i b s) := by
  unfold deckLoopEvent
  dsimp only
  split
  · split
    · exact yard_deckChange _ _ _ s
    · exact YardOnly.refl s
  · split
    · exact yard_deckChange _ _ _ s
    · exact YardOnly.refl s

theorem yard_captureLoopEvent (d : DeckId) (i : LoopId) (b : Bool) (s : State) :
    YardOnly s (captureLoopEvent d i b s) := by
  unfold captureLoopEvent
  split
  · exact YardOnly.refl s
  · split
    · exact yard_endCapture _ _ s
    · exact YardOnly.refl s

theorem yard_loopEvent (n : LaneId) (i : LoopId) (b f : Bool) (s : State) : YardOnly s (loopEvent n i b f s) :=
  ((yard_deckLoopEvent n i b s).trans (yard_captureLoopEvent n i b _)).trans
    (yard_applyLane n _ _ (laneLoopEvent_spec _ i b f).1)

theorem yard_wakeForRequest (d : DeckId) (s : State) : YardOnly s (wakeForRequest d s) := by
  unfold wakeForRequest
  split <;> first | exact yard_deckChange _ _ _ s | exact yard_setDeck s d _ rfl rfl | exact YardOnly.refl s

theorem yard_startCapture (d : DeckId) (w : CapOwner) (s : State) : YardOnly s (startCapture d w s) :=
  ((yard_endCapture d _ s).trans (yard_setUnit _ d _)).trans (yard_wakeForRequest d _)

/-! ### Samples -/

/-- A sample keeps everything of the deck but the window, the count, the history, the judgment and the weight. -/
theorem sample_frame (k : Deck) (ms : List Channel) :
    (k.sample ms).setup = k.setup ∧ (k.sample ms).setupBad = k.setupBad ∧ (k.sample ms).state = k.state ∧
      (k.sample ms).service = k.service ∧ (k.sample ms).zd = k.zd ∧ (k.sample ms).zeroLimit = k.zeroLimit ∧
      (k.sample ms).powerUpZero = k.powerUpZero ∧ (k.sample ms).zeroCal = k.zeroCal ∧
      (k.sample ms).empty = k.empty ∧ (k.sample ms).idle = k.idle :=
  ⟨rfl, rfl, rfl, rfl, rfl, rfl, rfl, rfl, rfl, rfl⟩

/-- What the zero does at a sample keeps the window, the count, the judgment and the weight. -/
theorem zeroStep_frame (k : Deck) :
    k.zeroStep.setup = k.setup ∧ k.zeroStep.setupBad = k.setupBad ∧ k.zeroStep.state = k.state ∧
      k.zeroStep.window = k.window ∧ k.zeroStep.count = k.count ∧ k.zeroStep.stable = k.stable ∧
      k.zeroStep.current = k.current ∧ k.zeroStep.service = k.service ∧ k.zeroStep.empty = k.empty ∧
      k.zeroStep.history = k.history.map (fun w => w - (k.zeroStep.zd - k.zd)) := by
  unfold Deck.zeroStep
  split
  · simp
  · split
    · split
      · split <;> simp [Deck.moveZero]
      · split <;> simp [Deck.moveZero]
    · simp

theorem yard_examineSample (d : DeckId) (z : Bool) (s : State) : YardOnly s (examineSample d z s) := by
  unfold examineSample
  split
  · split
    · exact yard_endCapture _ _ s
    · exact YardOnly.refl s
  · exact YardOnly.refl s

theorem yard_sampleIfReady (d : DeckId) (s : State) : YardOnly s (sampleIfReady d s) := by
  unfold sampleIfReady
  dsimp only
  split
  · refine YardOnly.trans (b := { s with channels := mapMembers d (fun ch => { ch with arrival := false }) s.channels })
      (yard_channels s s.period _ (fun c => ?_)) (YardOnly.trans ?_ (yard_examineSample d _ _))
    · rw [get_mapMembers]; split <;> rfl
    · refine yard_setDeck _ d _ ?_ ?_
      · split
        · exact (zeroStep_frame _).1
        · rfl
      · split
        · exact (zeroStep_frame _).2.1
        · rfl
  · exact YardOnly.refl s

/-! ### The close of an event -/

theorem yard_becomeClosed (s : State) : YardOnly s (becomeClosed s) := by
  refine (yard_register s _).trans (yard_foldl _ (fun s d => ?_) _ _)
  split
  · exact yard_deckChange _ _ _ s
  · exact YardOnly.refl s

theorem yard_autoClose (s : State) : YardOnly s (autoClose s) := by
  unfold autoClose
  split
  · exact yard_becomeClosed s
  · exact YardOnly.refl s

/-- A yard that holds a visit while CLOSING is not closed by the close of an event. -/
theorem autoClose_same (s : State) (h : s.closingHolds) : autoClose s = s := by
  unfold autoClose
  rw [if_neg]
  rintro ⟨hm, hv⟩
  exact h hm (List.isEmpty_iff.mp hv)

theorem judgeEmpty_deck (s : State) (d : DeckId) : (judgeEmpty s).deck d = (s.deck d).judgeEmpty (s.isEmpty d) :=
  get_ofFn _ _

/-- The judgment of EMPTY touches the mark and the idle timer only. -/
theorem deckJudgeEmpty_frame (k : Deck) (now : Bool) :
    k.judgeEmpty now = { k with empty := now, idle := (k.judgeEmpty now).idle } := by
  unfold Deck.judgeEmpty
  split
  · rename_i h; subst h; rfl
  · rfl

theorem yard_judgeEmpty (s : State) : YardOnly s (judgeEmpty s) := by
  refine yard_decks s _ (fun d => ?_)
  rw [get_ofFn, deckJudgeEmpty_frame]
  exact ⟨rfl, rfl⟩

theorem showLanes_lane (s : State) (n : LaneId) :
    (showLanes s).lane n = { (s.lane n).withOutputs with word := statusWord s n } := get_ofFn _ _

theorem yard_showLanes (s : State) : YardOnly s (showLanes s) := by
  refine YardOnly.trans (b := { s with lanes := Vector.ofFn (fun n => { (s.lane n).withOutputs with word := statusWord s n }) })
    (yard_lanes s _ (fun n => ?_)) (yard_links _ _ ?_)
  · rw [get_ofFn]; exact ⟨rfl, rfl⟩
  · refine offersOnly_foldl _ (fun ks n => ?_) _ _
    split
    · exact OffersOnly.refl _
    · exact offersOnly_offerAll _ _

/-- R77: the lanes shown have the outputs of their state. -/
theorem showLanes_shown (s : State) (n : LaneId) : ((showLanes s).lane n).shown := by
  rw [showLanes_lane]
  refine ⟨?_, ?_, ?_⟩ <;> simp [Lane.withOutputs, Lane.pendingCause]

theorem yard_announceMode (m : YardMode) (s : State) : YardOnly s (announceMode m s) := by
  unfold announceMode
  split
  · exact YardOnly.refl s
  · exact yard_offerAll s _

theorem yard_finish (m : YardMode) (s : State) : YardOnly s (finish m s) :=
  ((((yard_autoClose s).trans (yard_judgeLow _)).trans (yard_judgeEmpty _)).trans (yard_showLanes _)).trans
    (yard_announceMode m _)

/-- The YARD notice is all that announcing the mode adds. -/
theorem announceMode_frame (m : YardMode) (u : State) :
    (announceMode m u).channels = u.channels ∧ (announceMode m u).period = u.period ∧
      (announceMode m u).decks = u.decks ∧ (announceMode m u).units = u.units ∧ (announceMode m u).lanes = u.lanes ∧
      (announceMode m u).register = u.register ∧ (announceMode m u).journal = u.journal := by
  unfold announceMode
  split <;> exact ⟨rfl, rfl, rfl, rfl, rfl, rfl, rfl⟩

/-- The close of an event, once the yard's mode stands: EMPTY and the idle timers, the LOW mark, the outputs and words. -/
theorem finish_parts (m : YardMode) (s u : State) (h : autoClose s = u) :
    (finish m s).channels = u.channels ∧ (finish m s).period = u.period ∧ (finish m s).units = u.units ∧
      (finish m s).register = u.register ∧
      (finish m s).journal = { u.journal with low := decide (u.margin ≤ 16) } ∧
      (∀ d, (finish m s).deck d = (u.deck d).judgeEmpty (u.isEmpty d)) ∧
      ∀ n, (finish m s).lane n = { (u.lane n).withOutputs with word := statusWord (judgeEmpty (judgeLow u)) n } := by
  have e : finish m s = announceMode m (showLanes (judgeEmpty (judgeLow u))) := by unfold finish; rw [h]
  obtain ⟨a1, a2, a3, a4, a5, a6, a7⟩ := announceMode_frame m (showLanes (judgeEmpty (judgeLow u)))
  rw [← e] at a1 a2 a3 a4 a5 a6 a7
  refine ⟨a1, a2, a4, a6, a7, fun d => ?_, fun n => ?_⟩
  · show Vector.get _ d = _
    rw [a3]
    exact judgeEmpty_deck (judgeLow u) d
  · show Vector.get _ n = _
    rw [a5]
    exact showLanes_lane (judgeEmpty (judgeLow u)) n

/-- What the close of an event leaves, where it does not close the yard. -/
theorem finish_frame (m : YardMode) (s : State) (h : s.closingHolds) :
    (finish m s).channels = s.channels ∧ (finish m s).period = s.period ∧ (finish m s).units = s.units ∧
      (finish m s).register = s.register ∧
      (finish m s).journal = { s.journal with low := decide (s.margin ≤ 16) } ∧
      (∀ d, (finish m s).deck d = (s.deck d).judgeEmpty (s.isEmpty d)) ∧
      ∀ n, (finish m s).lane n = { (s.lane n).withOutputs with word := statusWord (judgeEmpty (judgeLow s)) n } :=
  finish_parts m s s (autoClose_same s h)

/-- The closing of the yard leaves the lanes and the journal. -/
theorem becomeClosed_lanes (s : State) : (becomeClosed s).lanes = s.lanes ∧ (becomeClosed s).journal = s.journal := by
  have key : ∀ (ds : List DeckId) (u : State),
      (ds.foldl (fun s d => if (s.deck d).state = .active ∨ (s.deck d).state = .warming then deckChange d .sleep .none s else s) u).lanes = u.lanes ∧
      (ds.foldl (fun s d => if (s.deck d).state = .active ∨ (s.deck d).state = .warming then deckChange d .sleep .none s else s) u).journal = u.journal := by
    intro ds
    induction ds with
    | nil => intro u; exact ⟨rfl, rfl⟩
    | cons d ds ih =>
      intro u
      simp only [List.foldl_cons]
      obtain ⟨h1, h2⟩ := ih (if (u.deck d).state = .active ∨ (u.deck d).state = .warming then deckChange d .sleep .none u else u)
      rw [h1, h2]
      split
      · obtain ⟨_, _, _, _, h5, h6, _⟩ := deckChange_frame d .sleep .none u
        exact ⟨h5, h6⟩
      · exact ⟨rfl, rfl⟩
  exact key allDecks _

theorem autoClose_lanes (s : State) : (autoClose s).lanes = s.lanes ∧ (autoClose s).journal = s.journal := by
  unfold autoClose
  split
  · exact becomeClosed_lanes s
  · exact ⟨rfl, rfl⟩

/-- Every lane after the close of an event: the lane as it stood, its outputs and its word. -/
theorem finish_lane (m : YardMode) (s : State) (n : LaneId) :
    ((finish m s).lane n).shown ∧ ∃ w, (finish m s).lane n = { (s.lane n).withOutputs with word := w } := by
  obtain ⟨_, _, _, _, _, _, h⟩ := finish_parts m s (autoClose s) rfl
  have hl : (autoClose s).lane n = s.lane n := by
    show Vector.get _ n = Vector.get _ n
    rw [(autoClose_lanes s).1]
  have h' := h n
  rw [hl] at h'
  refine ⟨?_, _, h'⟩
  rw [h']
  refine ⟨?_, ?_, ?_⟩ <;> simp [Lane.withOutputs, Lane.pendingCause]

/-- The journal stays under the close of an event, its LOW mark apart. -/
theorem finish_journal (m : YardMode) (s : State) :
    (finish m s).journal = { s.journal with low := (finish m s).journal.low } := by
  obtain ⟨_, _, _, _, h, _⟩ := finish_parts m s (autoClose s) rfl
  rw [h, (autoClose_lanes s).2]

/-- An event of the yard answers a next state, and what it does is the yard's alone. -/
theorem yardEvent_yard (now : State → Bool) (f : State → State) (s : State) (hf : YardOnly s (f s)) :
    ∃ t, yardEvent now f s = .next t ∧ YardOnly s t := by
  unfold yardEvent whenUp
  refine ⟨_, rfl, ?_⟩
  by_cases hu : s.up = true
  · by_cases hn : now s = true
    · simpa [hu, hn] using hf.trans (yard_finish _ _)
    · simpa [hu, hn] using YardOnly.refl s
  · simpa [hu] using YardOnly.refl s

/-- An event of the yard that acts. -/
theorem yardEvent_acts (now : State → Bool) (f : State → State) (s : State) (hu : s.up = true) (hn : now s = true) :
    yardEvent now f s = .next (finish s.register.mode (f s)) := by
  simp [yardEvent, whenUp, hu, hn]

end Sys2Proof.Machine
end

