-- ==== Sys2Proof/Laws/Journal.lean ====
section
/-! SUPPORT. The journal's records, cursors and slots under their own operations. -/

namespace Sys2Proof.Machine

/-- R148: the counter stays in its range. -/
theorem nextTicket_range (n : Nat) (h : n ≤ 4294967295) : 1 ≤ nextTicket n ∧ nextTicket n ≤ 4294967295 := by
  unfold nextTicket
  split <;> omega

/-- R145: at most 511 records stay when one more is placed, so the ring holds at most 512. -/
theorem roomFor_length (rs : List Ticket) (h : rs.length ≤ 512) : (roomFor rs).length ≤ 511 := by
  unfold roomFor
  split
  · omega
  · simp; omega

/-- A record that bears the counter's number, appended, keeps the numbering. -/
theorem numbered_append (rs : List Ticket) (t : Ticket) (h : numbered rs t.number) :
    numbered (rs ++ [t]) (nextTicket t.number) := by
  induction rs with
  | nil => rfl
  | cons a rs ih =>
    cases rs with
    | nil => exact ⟨h, rfl⟩
    | cons b rest => exact ⟨h.1, ih h.2⟩

/-- The numbering of what stays when the oldest record is removed. -/
theorem numbered_drop (rs : List Ticket) (c : Nat) (h : numbered rs c) : numbered (rs.drop 1) c := by
  cases rs with
  | nil => trivial
  | cons a rs =>
    cases rs with
    | nil => trivial
    | cons b rest => exact h.2

/-- R150: a written record and the counter after it. -/
theorem place_spec (j : Journal) (num : Nat) (t : Ticket) :
    (j.place num t).records = roomFor j.records ++ [{ t with number := num }] ∧
      (j.place num t).counter = some (nextTicket num) ∧ (j.place num t).low = j.low ∧
      ∀ l, (j.place num t).links.get l =
        (j.links.get l).afterWrite num (removedBy j.records)
          (orZero ((roomFor j.records ++ [({ t with number := num } : Ticket)]).head?.map Ticket.number)) := by
  refine ⟨rfl, rfl, rfl, fun l => ?_⟩
  simp [Journal.place]

/-- R151, R159: a write moves a cursor and counts a gap; role, slots, slot count, next-fill slot and HALT stay. -/
theorem afterWrite_frame (num : Nat) (gone : Option Nat) (oldest : Nat) (k : JournalLink) :
    k.afterWrite num gone oldest =
      { k with cursor := (k.afterWrite num gone oldest).cursor, gap := (k.afterWrite num gone oldest).gap } := by
  unfold JournalLink.afterWrite
  split
  · rfl
  · rfl
  · split <;> rfl

/-- The retained records from a number on are a tail of them. -/
theorem recordsFrom_length (rs : List Ticket) (n : Nat) : (recordsFrom rs n).length ≤ rs.length := by
  unfold recordsFrom
  exact (List.dropWhile_suffix _).length_le

/-- R155: a link that does not HOLD holds nothing. -/
theorem outstanding_of_not_hold (rs : List Ticket) (k : JournalLink) (h : k.role ≠ .hold) : k.outstanding rs = 0 := by
  simp [JournalLink.outstanding, h]

@[simp] theorem slot_setSlot_self (k : JournalLink) (i : SlotId) (t : Option Ticket) : (k.setSlot i t).slot i = t := by
  cases i <;> rfl

@[simp] theorem slot_setSlot_other (k : JournalLink) (i : SlotId) (t : Option Ticket) :
    (k.setSlot i t).slot i.other = k.slot i.other := by
  cases i <;> rfl

theorem other_ne (i : SlotId) : i.other ≠ i := by cases i <;> decide

/-- A slot replaced: everything but the slot stays. -/
theorem setSlot_frame (k : JournalLink) (i : SlotId) (t : Option Ticket) :
    (k.setSlot i t).role = k.role ∧ (k.setSlot i t).cursor = k.cursor ∧ (k.setSlot i t).slotCount = k.slotCount ∧
      (k.setSlot i t).gap = k.gap ∧ (k.setSlot i t).next = k.next ∧ (k.setSlot i t).halt = k.halt := by
  cases i <;> exact ⟨rfl, rfl, rfl, rfl, rfl, rfl⟩

/-- R166, R167: one fill, by its conditions. -/
theorem fillOnce_spec (rs : List Ticket) (k : JournalLink) :
    (k.open? = false → k.fillOnce rs = (k, [])) ∧
      (waitingRecords rs k.cursor = [] → k.fillOnce rs = (k, [])) ∧
      (∀ t rest, k.open? = true → waitingRecords rs k.cursor = t :: rest →
        k.fillOnce rs = ({ k.setSlot k.next (some t) with
          next := k.next.other, cursor := cursorPast rest, slotCount := k.slotCount + 1, gap := 0 },
          [.ticket k.next t.number])) := by
  refine ⟨fun h => ?_, fun h => ?_, fun t rest h1 h2 => ?_⟩
  · simp [JournalLink.fillOnce, h]
  · unfold JournalLink.fillOnce
    rw [h]
    split <;> rfl
  · simp [JournalLink.fillOnce, h1, h2]

/-- R166: no fill while the role is NONE, HALT is set or the next-fill slot is LINK-owned, and none past the newest. -/
theorem fill_none (rs : List Ticket) (k : JournalLink) (h : k.open? = false ∨ waitingRecords rs k.cursor = []) :
    k.fill rs = (k, []) := by
  obtain ⟨h1, h2, _⟩ := fillOnce_spec rs k
  have e : k.fillOnce rs = (k, []) := h.elim h1 h2
  simp [JournalLink.fill, e]

/-- A fill never touches the role or HALT. -/
theorem fillOnce_frame (rs : List Ticket) (k : JournalLink) :
    (k.fillOnce rs).1.role = k.role ∧ (k.fillOnce rs).1.halt = k.halt := by
  unfold JournalLink.fillOnce
  split
  · split
    · exact ⟨rfl, rfl⟩
    · exact ⟨(setSlot_frame k k.next _).1, (setSlot_frame k k.next _).2.2.2.2.2⟩
  · exact ⟨rfl, rfl⟩

theorem fill_frame (rs : List Ticket) (k : JournalLink) :
    (k.fill rs).1.role = k.role ∧ (k.fill rs).1.halt = k.halt := by
  have h1 := fillOnce_frame rs k
  have h2 := fillOnce_frame rs (k.fillOnce rs).1
  exact ⟨h2.1.trans h1.1, h2.2.trans h1.2⟩

/-- R154, R171: the place a link takes with a role. -/
theorem takeRole_spec (k : JournalLink) (r : JournalRole) :
    k.takeRole r = ⟨r, if r = .none then .absent else .head, 0, 0, none, none, .even, k.halt⟩ := rfl

/-! ### Distinct numbers, and the places of cursors -/

/-- R148: consecutive numbering fixes every number by the oldest one. -/
theorem numbered_get (rs : List Ticket) (a : Ticket) (c : Nat) (h : numbered (a :: rs) c)
    (hr : ∀ t ∈ a :: rs, 1 ≤ t.number ∧ t.number ≤ 4294967295) (i : Nat) (hi : i < (a :: rs).length) :
    (a :: rs)[i].number = (a.number - 1 + i) % 4294967295 + 1 := by
  induction rs generalizing a i with
  | nil =>
    have hi0 : i = 0 := by simpa using hi
    subst hi0
    have := hr a List.mem_cons_self
    show a.number = _
    omega
  | cons b rest ih =>
    cases i with
    | zero =>
      have := hr a List.mem_cons_self
      show a.number = _
      omega
    | succ j =>
      have hj : j < (b :: rest).length := by simpa using hi
      have hb := ih b h.2 (fun t ht => hr t (List.mem_cons_of_mem _ ht)) j hj
      have h1 : b.number = nextTicket a.number := h.1
      have := hr a List.mem_cons_self
      have := hr b (List.mem_cons_of_mem _ List.mem_cons_self)
      show (b :: rest)[j].number = _
      rw [hb]
      unfold nextTicket at h1
      split at h1 <;> omega

/-- R150: no two retained records bear the same number. -/
theorem sequenced_nodup {j : Journal} (h : j.sequenced) : (j.records.map (·.number)).Nodup := by
  obtain ⟨hl, hr, hc⟩ := h
  cases hrs : j.records with
  | nil => simp
  | cons a rs =>
    rw [hrs] at hl hr hc
    cases hcc : j.counter with
    | none => rw [hcc] at hc; cases hc
    | some c =>
      rw [hcc] at hc
      rw [List.nodup_iff_getElem?_ne_getElem?]
      intro i k hik hk
      simp only [List.length_map] at hk
      have hi : i < (a :: rs).length := by omega
      simp only [List.getElem?_map, List.getElem?_eq_getElem hi, List.getElem?_eq_getElem hk, Option.map_some,
        ne_eq, Option.some.injEq]
      rw [numbered_get rs a c hc.2.2 hr i hi, numbered_get rs a c hc.2.2 hr k hk]
      omega

/-- With distinct numbers, the records from the one at a place on are those from that place. -/
theorem recordsFrom_at (rs : List Ticket) (h : (rs.map (·.number)).Nodup) (i : Nat) (t : Ticket) (ht : rs[i]? = some t) :
    recordsFrom rs t.number = rs.drop i := by
  induction rs generalizing i with
  | nil => cases ht
  | cons a rs ih =>
    rw [List.map_cons, List.nodup_cons] at h
    unfold recordsFrom
    cases i with
    | zero =>
      have : a = t := by simpa using ht
      simp [this]
    | succ i =>
      have ht' : rs[i]? = some t := by simpa using ht
      have hne : a.number ≠ t.number := fun e => h.1 (e ▸ List.mem_map_of_mem (List.mem_of_getElem? ht'))
      rw [List.dropWhile_cons_of_pos (by simpa using hne)]
      exact ih h.2 i ht'

/-- R153: the records waiting at the cursor of a place. -/
theorem waiting_at (rs : List Ticket) (h : (rs.map (·.number)).Nodup) (i : Nat) :
    waitingRecords rs (cursorAt rs i) = rs.drop i := by
  unfold cursorAt
  cases ht : rs[i]? with
  | none => exact (List.drop_eq_nil_of_le (List.getElem?_eq_none_iff.mp ht)).symm
  | some t => exact recordsFrom_at rs h i t ht

theorem cursorPlace_eq (rs : List Ticket) (c : Cursor) : cursorPlace rs c = c.place rs := by
  cases c with
  | absent => rfl
  | head => rfl
  | record n =>
    show rs.length - (recordsFrom rs n).length = rs.findIdx _
    unfold recordsFrom
    induction rs with
    | nil => rfl
    | cons a rs ih =>
      have hle : (rs.dropWhile (fun t => t.number != n)).length ≤ rs.length := (List.dropWhile_suffix _).length_le
      by_cases e : a.number = n
      · simp [List.findIdx_cons, e]
      · rw [List.dropWhile_cons_of_pos (by simpa using e), List.findIdx_cons]
        have : (a.number == n) = false := by simpa using e
        rw [this, cond_false, ← ih, List.length_cons]
        omega

/-- R153: the cursor past the record at a place. -/
theorem cursorPast_at (rs : List Ticket) (i : Nat) : cursorPast (rs.drop i) = cursorAt rs i := by
  unfold cursorAt
  cases ht : rs[i]? with
  | none => rw [List.drop_eq_nil_of_le (List.getElem?_eq_none_iff.mp ht)]; rfl
  | some t =>
    obtain ⟨hi, e⟩ := List.getElem?_eq_some_iff.mp ht
    rw [List.drop_eq_getElem_cons hi, e]; rfl

/-- R166: the fills of a link with both slots PART-owned whose cursor stands at a place. -/
theorem fill_at (rs : List Ticket) (h : (rs.map (·.number)).Nodup) (i : Nat) (k : JournalLink) (hr : k.role ≠ .none)
    (hh : k.halt = false) (he : k.even = none) (ho : k.odd = none) (hn : k.next = .even) (hs : k.slotCount = 0)
    (hc : k.cursor = cursorAt rs i) (hg : k.gap = 0) :
    let w := rs.drop i
    (k.fill rs).1 = { k with
        even := w[0]?, odd := w[1]?, slotCount := min 2 w.length, cursor := cursorAt rs (i + min 2 w.length)
        next := if w.length = 1 then .odd else .even } ∧
      (k.fill rs).2 = (w[0]?.map (fun t => Notice.ticket .even t.number)).toList ++
        (w[1]?.map (fun t => Notice.ticket .odd t.number)).toList := by
  obtain ⟨r, c, n, g, e, o, x, hl⟩ := k
  simp only at hr hh he ho hn hs hc hg
  subst hh he ho hn hs hc hg
  have hrole : (r != JournalRole.none) = true := by simpa using hr
  have hw := waiting_at rs h i
  cases hd : rs.drop i with
  | nil =>
    have e1 : (⟨r, cursorAt rs i, 0, 0, none, none, .even, false⟩ : JournalLink).fill rs =
        (⟨r, cursorAt rs i, 0, 0, none, none, .even, false⟩, []) := fill_none _ _ (Or.inr (hw.trans hd))
    rw [e1]
    simp
  | cons a w1 =>
    have h1 : rs.drop (i + 1) = w1 := by
      rw [← List.drop_drop, hd]; rfl
    have hw1 := waiting_at rs h (i + 1)
    have hp1 := cursorPast_at rs (i + 1)
    rw [h1] at hw1 hp1
    have f1 : (⟨r, cursorAt rs i, 0, 0, none, none, .even, false⟩ : JournalLink).fillOnce rs =
        (⟨r, cursorAt rs (i + 1), 1, 0, some a, none, .odd, false⟩, [.ticket .even a.number]) := by
      rw [(fillOnce_spec rs _).2.2 a w1 (by simp [JournalLink.open?, JournalLink.slot, hrole]) (hw.trans hd), hp1]
      rfl
    cases w1 with
    | nil =>
      have f2 : (⟨r, cursorAt rs (i + 1), 1, 0, some a, none, .odd, false⟩ : JournalLink).fillOnce rs =
          (⟨r, cursorAt rs (i + 1), 1, 0, some a, none, .odd, false⟩, []) := (fillOnce_spec rs _).2.1 hw1
      unfold JournalLink.fill
      simp only [f1, f2]
      simp
    | cons b w2 =>
      have h2 : rs.drop (i + 2) = w2 := by
        rw [show i + 2 = i + 1 + 1 by rfl, ← List.drop_drop, h1]; rfl
      have hp2 := cursorPast_at rs (i + 2)
      rw [h2] at hp2
      have f2 : (⟨r, cursorAt rs (i + 1), 1, 0, some a, none, .odd, false⟩ : JournalLink).fillOnce rs =
          (⟨r, cursorAt rs (i + 2), 2, 0, some a, some b, .even, false⟩, [.ticket .odd b.number]) := by
        rw [(fillOnce_spec rs _).2.2 b w2 (by simp [JournalLink.open?, JournalLink.slot, hrole]) hw1, hp2]
        rfl
      unfold JournalLink.fill
      simp only [f1, f2]
      simp

/-- R162, R163, R172: the place a reset leaves a link, before it fills. -/
theorem afterReset_spec (rs : List Ticket) (r : Role) (k : JournalLink) :
    let t := k.afterReset rs r
    t.role = k.roleUnder r ∧ t.halt = false ∧ t.gap = 0 ∧ t.even = none ∧ t.odd = none ∧ t.next = .even ∧
      t.slotCount = 0 ∧ (r = .disabled → t.cursor = .absent) ∧
      (r ≠ .disabled → k.cursor ≠ .absent → t.cursor = cursorAt rs (k.cursor.place rs - k.slotCount)) := by
  have hc : k.cursor ≠ .absent →
      rewindCursor rs k.slotCount k.cursor = cursorAt rs (k.cursor.place rs - k.slotCount) := by
    intro h
    rw [← cursorPlace_eq]
    unfold rewindCursor
    cases hk : k.cursor with
    | absent => exact absurd hk h
    | head => rfl
    | record n => rfl
  unfold JournalLink.afterReset JournalLink.adjust JournalLink.roleUnder
  cases r with
  | disabled => simp
  | gate => simpa using hc
  | office => simpa using hc
  | kiosk =>
    by_cases h : k.role = .hold <;> simpa [h] using hc

end Sys2Proof.Machine
end

