-- ==== Sys2Proof/Laws/Operands.lean ====
section
/-! SUPPORT. The fields of a payload read back from the bytes that give them (R190, R192). -/

namespace Sys2Proof.Machine

theorem num_two (a b : Byte) : num [a, b] = a.toNat * 256 + b.toNat := by simp [num]

theorem num_four (a b c d : Byte) :
    num [a, b, c, d] = ((a.toNat * 256 + b.toNat) * 256 + c.toNat) * 256 + d.toNat := by simp [num]

/-- A lane or deck number. -/
@[simp] theorem quadField_be1 (n : Fin 4) : quadField? (be1 n.val) = some n := by
  revert n; decide

/-- A visit number, two bytes. -/
theorem visitField_be2 (n : Nat) (h : n < 65536) : visitField? (be2 n) = some n := by
  simp only [be2, visitField?, num_two, BitVec.toNat_ofNat]
  congr 1
  omega

/-- A number of four bytes. -/
theorem wordField_be4 (n : Nat) (h : n < 4294967296) : wordField? (be4 n) = some n := by
  simp only [be4, be3, be2, wordField?, num_four, BitVec.toNat_ofNat]
  congr 1
  omega

@[simp] theorem slotField_be1 (i : SlotId) : slotField? (be1 i.code) = some i := by cases i <;> decide

@[simp] theorem roleField_be1 (r : JournalRole) : roleField? (be1 r.code) = some r := by cases r <;> decide

/-- Visit number and stream of a RECLASSIFY. -/
theorem reclassifyFields_be (n st : Nat) (h : n < 65536) (h1 : 1 ≤ st) (h2 : st ≤ 31) :
    reclassifyFields? (be2 n ++ be1 st) = some (n, st) := by
  have e : (BitVec.ofNat 8 st).toNat = st := by simp; omega
  simp only [be2, be1, List.cons_append, List.nil_append, reclassifyFields?, e, num_two, BitVec.toNat_ofNat]
  simp only [within?, h1, h2, and_self, if_true, Option.map_some]
  congr 2
  omega

/-- Start position and count of a LIST_VISITS. -/
theorem listFields_be (a b : Nat) (ha : a ≤ 95) (h1 : 1 ≤ b) (h2 : b ≤ 8) :
    listFields? (be1 a ++ be1 b) = some (a, b) := by
  have ea : (BitVec.ofNat 8 a).toNat = a := by simp; omega
  have eb : (BitVec.ofNat 8 b).toNat = b := by simp; omega
  simp [be1, listFields?, ea, eb, within?, ha, h1, h2]

/-- A setup index. -/
theorem setupIndex_be1 (i : SetupIndex) : setupIndex? (BitVec.ofNat 8 i.number) = some i := by
  cases i with
  | cal c => revert c; decide
  | deck d => revert d; decide
  | lane n => revert n; decide
  | yard => decide

@[simp] theorem setupIndexField_be1 (i : SetupIndex) : setupIndexField? (be1 i.number) = some i := setupIndex_be1 i

/-- Every value of a ticket base but 0. -/
theorem ticketBase_be4 (n : Nat) (h : n < 4294967296) :
    ticketBase? (be4 n) = if n = 0 then none else some n := by
  unfold ticketBase?
  rw [wordField_be4 n h]
  by_cases h0 : n = 0
  · simp [h0, within?]
  · have : 1 ≤ n ∧ n ≤ 4294967295 := ⟨by omega, by omega⟩
    simp [h0, within?, this]

/-- A signed number of four bytes. -/
theorem signedNum_four (x : Int) (h1 : -2147483648 ≤ x) (h2 : x ≤ 2147483647) :
    ∃ a b c d, signed4 x = [a, b, c, d] ∧ signedNum [a, b, c, d] = x := by
  refine ⟨_, _, _, _, rfl, ?_⟩
  unfold signedNum
  have e : num [BitVec.ofNat 8 ((BitVec.ofInt 32 x).toNat / 16777216), BitVec.ofNat 8 ((BitVec.ofInt 32 x).toNat / 65536),
      BitVec.ofNat 8 ((BitVec.ofInt 32 x).toNat / 256), BitVec.ofNat 8 (BitVec.ofInt 32 x).toNat] =
      (BitVec.ofInt 32 x).toNat := by
    have hlt := (BitVec.ofInt 32 x).isLt
    generalize (BitVec.ofInt 32 x).toNat = n at *
    rw [num_four]
    simp only [BitVec.toNat_ofNat]
    omega
  rw [e, BitVec.ofNat_toNat]
  simp only [BitVec.setWidth_eq]
  rw [BitVec.toInt_ofInt]
  simp only [Int.bmod_def]
  omega

/-- The numbers of a payload read one after the other. -/
theorem fours_signed4 (x : Int) (h1 : -2147483648 ≤ x) (h2 : x ≤ 2147483647) (rest : List Byte) :
    fours (signed4 x ++ rest) = (fours rest).map (x :: ·) := by
  obtain ⟨a, b, c, d, e, e'⟩ := signedNum_four x h1 h2
  rw [e]
  simp only [List.cons_append, List.nil_append, fours, e']

/-- The fields of a calibration record read back. -/
theorem setupWrite_cal (c : ChanId) (r : CalRecord) (h : r.inRange) :
    setupWriteFields? (be1 c.val ++ r.bytes) =
      some (.cal c r.zero r.span (match r.deck with | none => -1 | some d => d.val)) := by
  obtain ⟨h1, h2, _, h4⟩ := h
  have key : ∀ x : Int, -2147483648 ≤ x → x ≤ 2147483647 →
      fours (signed4 r.zero ++ signed4 r.span ++ signed4 x) = some [r.zero, (r.span : Int), x] := by
    intro x hx hx'
    have e : signed4 r.zero ++ signed4 r.span ++ signed4 x = signed4 r.zero ++ (signed4 r.span ++ (signed4 x ++ [])) := by
      simp
    rw [e, fours_signed4 _ (by omega) (by omega), fours_signed4 _ (by omega) (by omega), fours_signed4 _ hx hx']
    rfl
  have hf : fours r.bytes = some [r.zero, (r.span : Int), match r.deck with | none => -1 | some d => d.val] := by
    unfold CalRecord.bytes
    cases r.deck with
    | none => exact key _ (by decide) (by decide)
    | some d => exact key _ (by have := d.isLt; simp only; omega) (by have := d.isLt; simp only; omega)
  have hi : setupIndex? (BitVec.ofNat 8 c.val) = some (.cal c) := setupIndex_be1 (.cal c)
  simp only [be1, List.cons_append, List.nil_append, setupWriteFields?, hi, hf]

/-- The fields of a deck setup record read back. -/
theorem setupWrite_deck (d : DeckId) (u : DeckSetup) (h : u.inRange) :
    setupWriteFields? (be1 (16 + d.val) ++ u.bytes) =
      some (.deck d u.max u.e u.k u.m u.b u.stableTimeout u.warmUp u.idleSleep) := by
  obtain ⟨h1, h2, h3, _, _, h6, h7, h8, h9, h10, h11, h12, h13, h14, h15⟩ := h
  have he : u.e ≤ 100 := by
    simp only [List.mem_cons, List.not_mem_nil, or_false] at h3
    omega
  have hf : fours u.bytes =
      some [(u.max : Int), u.e, u.k, u.m, u.b, u.stableTimeout, u.warmUp, u.idleSleep] := by
    have e : u.bytes = signed4 u.max ++ (signed4 u.e ++ (signed4 u.k ++ (signed4 u.m ++ (signed4 u.b ++
        (signed4 u.stableTimeout ++ (signed4 u.warmUp ++ (signed4 u.idleSleep ++ []))))))) := by
      simp [DeckSetup.bytes]
    rw [e]
    repeat rw [fours_signed4 _ (by omega) (by omega)]
    rfl
  have hi : setupIndex? (BitVec.ofNat 8 (16 + d.val)) = some (.deck d) := setupIndex_be1 (.deck d)
  simp only [be1, List.cons_append, List.nil_append, setupWriteFields?, hi, hf]

/-- The fields of a lane setup record read back. -/
theorem setupWrite_lane (n : LaneId) (u : LaneSetup) (h : u.inRange) :
    setupWriteFields? (be1 (20 + n.val) ++ u.bytes) =
      some (.lane n u.enabled.toNat u.direction.code u.loopFilter u.settle u.travel u.wake.deckRising.toNat
        u.wake.deckFalling.toNat u.wake.clearRising.toNat u.wake.clearFalling.toNat) := by
  obtain ⟨h1, h2, _, h4, h5, _, h7, h8⟩ := h
  have hb : ∀ b : Bool, b.toNat ≤ 1 := fun b => by cases b <;> decide
  have hc : u.direction.code ≤ 1 := by cases u.direction <;> decide
  have b0 := hb u.enabled
  have b1 := hb u.wake.deckRising
  have b2 := hb u.wake.deckFalling
  have b3 := hb u.wake.clearRising
  have b4 := hb u.wake.clearFalling
  have hf : fours u.bytes =
      some [(u.enabled.toNat : Int), u.direction.code, u.loopFilter, u.settle, u.travel, u.wake.deckRising.toNat,
        u.wake.deckFalling.toNat, u.wake.clearRising.toNat, u.wake.clearFalling.toNat] := by
    have e : u.bytes = signed4 u.enabled.toNat ++ (signed4 u.direction.code ++ (signed4 u.loopFilter ++
        (signed4 u.settle ++ (signed4 u.travel ++ (signed4 u.wake.deckRising.toNat ++
        (signed4 u.wake.deckFalling.toNat ++ (signed4 u.wake.clearRising.toNat ++
        (signed4 u.wake.clearFalling.toNat ++ [])))))))) := by
      simp [LaneSetup.bytes]
    rw [e]
    repeat rw [fours_signed4 _ (by omega) (by omega)]
    rfl
  have hi : setupIndex? (BitVec.ofNat 8 (20 + n.val)) = some (.lane n) := setupIndex_be1 (.lane n)
  simp only [be1, List.cons_append, List.nil_append, setupWriteFields?, hi, hf]

/-- The fields of the yard setup record read back. -/
theorem setupWrite_yard (u : YardSetup) (h : u.inRange) :
    setupWriteFields? (be1 24 ++ u.bytes) = some (.yard u.p u.maxStay) := by
  obtain ⟨h1, h2, h3⟩ := h
  have hf : fours u.bytes = some [(u.p : Int), u.maxStay] := by
    have e : u.bytes = signed4 u.p ++ (signed4 u.maxStay ++ []) := by simp [YardSetup.bytes]
    rw [e]
    repeat rw [fours_signed4 _ (by omega) (by omega)]
    rfl
  have hi : setupIndex? (BitVec.ofNat 8 24) = some .yard := setupIndex_be1 .yard
  simp only [be1, List.cons_append, List.nil_append, setupWriteFields?, hi, hf]

end Sys2Proof.Machine
end

