-- ==== Sys2Proof/Laws/PerInstr.lean ====
section
/-! SUPPORT. What holds of every command as syntax, one lemma per command: a command carries a payload exactly when it is
a request, a payload that can come holds at most 198 bytes (R183), and a request that can come bears a request code of
R190 unless it is of unknown kind (R186). -/

namespace Sys2Proof.Laws.Payload

def Statement (i : Instr) : Prop :=
  (Machine.requestOf i).isSome = i.payload?.isSome ∧
    (i.wellFormed = true → ∀ p, i.payload? = some p → p.length ≤ 198) ∧
    (i.wellFormed = true → ∀ x, Machine.requestOf i = some x →
      (x.2.1 ∈ requestCodes ↔ i.unknownKind? = none))

/-- A command that is no request. -/
theorem of_event (i : Instr) (h : Machine.requestOf i = none) (hp : i.payload? = none) : Statement i :=
  ⟨by rw [h, hp]; rfl, fun _ p e => (by rw [hp] at e; cases e), fun _ x e => (by rw [h] at e; cases e)⟩

/-- A request of a known kind. -/
theorem of_request (i : Instr) (l : LinkId) (code tag : Byte) (p : List Byte)
    (h : Machine.requestOf i = some (l, code, tag)) (hp : i.payload? = some p) (hk : i.unknownKind? = none)
    (hc : code ∈ requestCodes) : Statement i := by
  refine ⟨by rw [h, hp]; rfl, fun hw q e => ?_, fun _ x e => ?_⟩
  · rw [hp] at e
    cases e
    have hw' := hw
    unfold Instr.wellFormed at hw'
    rw [hp, hk] at hw'
    simpa using hw'
  · rw [h] at e
    cases e
    exact ⟨fun _ => hk, fun _ => hc⟩

theorem cellReading (c : ChanId) (raw : BitVec 24) (checkOk : Bool) :
    Statement (.cellReading c raw checkOk) := of_event _ rfl rfl

theorem periodTimerExpiry :
    Statement .periodTimerExpiry := of_event _ rfl rfl

theorem warmUpTimerExpiry (d : DeckId) :
    Statement (.warmUpTimerExpiry d) := of_event _ rfl rfl

theorem idleTimerExpiry (d : DeckId) :
    Statement (.idleTimerExpiry d) := of_event _ rfl rfl

theorem stableTimeoutExpiry (d : DeckId) :
    Statement (.stableTimeoutExpiry d) := of_event _ rfl rfl

theorem loopLevelChange (n : LaneId) (loop : LoopId) (occupied : Bool) :
    Statement (.loopLevelChange n loop occupied) := of_event _ rfl rfl

theorem loopDebounceExpiry (n : LaneId) (loop : LoopId) :
    Statement (.loopDebounceExpiry n loop) := of_event _ rfl rfl

theorem detectorFaultAsserted (n : LaneId) (loop : LoopId) :
    Statement (.detectorFaultAsserted n loop) := of_event _ rfl rfl

theorem detectorFaultCleared (n : LaneId) (loop : LoopId) :
    Statement (.detectorFaultCleared n loop) := of_event _ rfl rfl

theorem limitInputChange (n : LaneId) (lim : LimitId) (active : Bool) :
    Statement (.limitInputChange n lim active) := of_event _ rfl rfl

theorem limitDebounceExpiry (n : LaneId) (lim : LimitId) :
    Statement (.limitDebounceExpiry n lim) := of_event _ rfl rfl

theorem travelTimerExpiry (n : LaneId) :
    Statement (.travelTimerExpiry n) := of_event _ rfl rfl

theorem settleTimerExpiry (n : LaneId) :
    Statement (.settleTimerExpiry n) := of_event _ rfl rfl

theorem resolutionTimerExpiry (n : LaneId) :
    Statement (.resolutionTimerExpiry n) := of_event _ rfl rfl

theorem clockSecond :
    Statement .clockSecond := of_event _ rfl rfl

theorem storeWriteDone :
    Statement .storeWriteDone := of_event _ rfl rfl

theorem admitVehicle (l : LinkId) (tag : Byte) (payload : List Byte) :
    Statement (.admitVehicle l tag payload) := of_request _ l _ tag payload rfl rfl rfl (by decide)

theorem depart (l : LinkId) (tag : Byte) (payload : List Byte) :
    Statement (.depart l tag payload) := of_request _ l _ tag payload rfl rfl rfl (by decide)

theorem recapture (l : LinkId) (tag : Byte) (payload : List Byte) :
    Statement (.recapture l tag payload) := of_request _ l _ tag payload rfl rfl rfl (by decide)

theorem cancel (l : LinkId) (tag : Byte) (payload : List Byte) :
    Statement (.cancel l tag payload) := of_request _ l _ tag payload rfl rfl rfl (by decide)

theorem reraise (l : LinkId) (tag : Byte) (payload : List Byte) :
    Statement (.reraise l tag payload) := of_request _ l _ tag payload rfl rfl rfl (by decide)

theorem clearLane (l : LinkId) (tag : Byte) (payload : List Byte) :
    Statement (.clearLane l tag payload) := of_request _ l _ tag payload rfl rfl rfl (by decide)

theorem voidVisit (l : LinkId) (tag : Byte) (payload : List Byte) :
    Statement (.voidVisit l tag payload) := of_request _ l _ tag payload rfl rfl rfl (by decide)

theorem reclassify (l : LinkId) (tag : Byte) (payload : List Byte) :
    Statement (.reclassify l tag payload) := of_request _ l _ tag payload rfl rfl rfl (by decide)

theorem manualRaise (l : LinkId) (tag : Byte) (payload : List Byte) :
    Statement (.manualRaise l tag payload) := of_request _ l _ tag payload rfl rfl rfl (by decide)

theorem lowerReset (l : LinkId) (tag : Byte) (payload : List Byte) :
    Statement (.lowerReset l tag payload) := of_request _ l _ tag payload rfl rfl rfl (by decide)

theorem spotWeigh (l : LinkId) (tag : Byte) (payload : List Byte) :
    Statement (.spotWeigh l tag payload) := of_request _ l _ tag payload rfl rfl rfl (by decide)

theorem wake (l : LinkId) (tag : Byte) (payload : List Byte) :
    Statement (.wake l tag payload) := of_request _ l _ tag payload rfl rfl rfl (by decide)

theorem zeroDeck (l : LinkId) (tag : Byte) (payload : List Byte) :
    Statement (.zeroDeck l tag payload) := of_request _ l _ tag payload rfl rfl rfl (by decide)

theorem zeroCal (l : LinkId) (tag : Byte) (payload : List Byte) (calen : Bool) :
    Statement (.zeroCal l tag payload calen) := of_request _ l _ tag payload rfl rfl rfl (by decide)

theorem serviceEnter (l : LinkId) (tag : Byte) (payload : List Byte) :
    Statement (.serviceEnter l tag payload) := of_request _ l _ tag payload rfl rfl rfl (by decide)

theorem serviceLeave (l : LinkId) (tag : Byte) (payload : List Byte) :
    Statement (.serviceLeave l tag payload) := of_request _ l _ tag payload rfl rfl rfl (by decide)

theorem tareWrite (l : LinkId) (tag : Byte) (payload : List Byte) :
    Statement (.tareWrite l tag payload) := of_request _ l _ tag payload rfl rfl rfl (by decide)

theorem tareErase (l : LinkId) (tag : Byte) (payload : List Byte) :
    Statement (.tareErase l tag payload) := of_request _ l _ tag payload rfl rfl rfl (by decide)

theorem tareRead (l : LinkId) (tag : Byte) (payload : List Byte) :
    Statement (.tareRead l tag payload) := of_request _ l _ tag payload rfl rfl rfl (by decide)

theorem setupWrite (l : LinkId) (tag : Byte) (payload : List Byte) (calen : Bool) :
    Statement (.setupWrite l tag payload calen) := of_request _ l _ tag payload rfl rfl rfl (by decide)

theorem setupRead (l : LinkId) (tag : Byte) (payload : List Byte) (calen : Bool) :
    Statement (.setupRead l tag payload calen) := of_request _ l _ tag payload rfl rfl rfl (by decide)

theorem setYardMode (l : LinkId) (tag : Byte) (payload : List Byte) :
    Statement (.setYardMode l tag payload) := of_request _ l _ tag payload rfl rfl rfl (by decide)

theorem setClock (l : LinkId) (tag : Byte) (payload : List Byte) :
    Statement (.setClock l tag payload) := of_request _ l _ tag payload rfl rfl rfl (by decide)

theorem readClock (l : LinkId) (tag : Byte) (payload : List Byte) :
    Statement (.readClock l tag payload) := of_request _ l _ tag payload rfl rfl rfl (by decide)

theorem setTicketBase (l : LinkId) (tag : Byte) (payload : List Byte) :
    Statement (.setTicketBase l tag payload) := of_request _ l _ tag payload rfl rfl rfl (by decide)

theorem restart (l : LinkId) (tag : Byte) (payload : List Byte) :
    Statement (.restart l tag payload) := of_request _ l _ tag payload rfl rfl rfl (by decide)

theorem identify (l : LinkId) (tag : Byte) (payload : List Byte) :
    Statement (.identify l tag payload) := of_request _ l _ tag payload rfl rfl rfl (by decide)

theorem readDeck (l : LinkId) (tag : Byte) (payload : List Byte) :
    Statement (.readDeck l tag payload) := of_request _ l _ tag payload rfl rfl rfl (by decide)

theorem readLane (l : LinkId) (tag : Byte) (payload : List Byte) :
    Statement (.readLane l tag payload) := of_request _ l _ tag payload rfl rfl rfl (by decide)

theorem readVisit (l : LinkId) (tag : Byte) (payload : List Byte) :
    Statement (.readVisit l tag payload) := of_request _ l _ tag payload rfl rfl rfl (by decide)

theorem listVisits (l : LinkId) (tag : Byte) (payload : List Byte) :
    Statement (.listVisits l tag payload) := of_request _ l _ tag payload rfl rfl rfl (by decide)

theorem readTicket (l : LinkId) (tag : Byte) (payload : List Byte) :
    Statement (.readTicket l tag payload) := of_request _ l _ tag payload rfl rfl rfl (by decide)

theorem slotRead (l : LinkId) (tag : Byte) (payload : List Byte) :
    Statement (.slotRead l tag payload) := of_request _ l _ tag payload rfl rfl rfl (by decide)

theorem slotReturn (l : LinkId) (tag : Byte) (payload : List Byte) :
    Statement (.slotReturn l tag payload) := of_request _ l _ tag payload rfl rfl rfl (by decide)

theorem slotHalt (l : LinkId) (tag : Byte) (payload : List Byte) :
    Statement (.slotHalt l tag payload) := of_request _ l _ tag payload rfl rfl rfl (by decide)

theorem slotResume (l : LinkId) (tag : Byte) (payload : List Byte) :
    Statement (.slotResume l tag payload) := of_request _ l _ tag payload rfl rfl rfl (by decide)

theorem setSubscription (l : LinkId) (tag : Byte) (payload : List Byte) :
    Statement (.setSubscription l tag payload) := of_request _ l _ tag payload rfl rfl rfl (by decide)

theorem setJournalRole (l : LinkId) (tag : Byte) (payload : List Byte) :
    Statement (.setJournalRole l tag payload) := of_request _ l _ tag payload rfl rfl rfl (by decide)

theorem unknownKind (l : LinkId) (kind : Byte) (tag : Byte) (payload : List Byte) :
    Statement (.unknownKind l kind tag payload) := by
  refine ⟨rfl, fun hw p e => ?_, fun hw x e => ?_⟩
  · cases e
    simp [Instr.wellFormed, Instr.payload?] at hw
    exact hw.1
  · cases e
    simp [Instr.wellFormed, Instr.payload?, Instr.unknownKind?] at hw
    simp [Instr.unknownKind?, hw.2]

theorem badFrame (l : LinkId) (why : FrameFault) :
    Statement (.badFrame l why) := of_event _ rfl rfl

theorem frameGapTimeout (l : LinkId) :
    Statement (.frameGapTimeout l) := of_event _ rfl rfl

theorem frameSent (l : LinkId) :
    Statement (.frameSent l) := of_event _ rfl rfl

theorem restartBegin (straps : Straps) :
    Statement (.restartBegin straps) := of_event _ rfl rfl

theorem powerOn (straps : Straps) :
    Statement (.powerOn straps) := of_event _ rfl rfl

theorem resetPinAssert :
    Statement .resetPinAssert := of_event _ rfl rfl

theorem resetPinRelease (straps : Straps) :
    Statement (.resetPinRelease straps) := of_event _ rfl rfl

theorem storeScanDone :
    Statement .storeScanDone := of_event _ rfl rfl

theorem mainSupplyLoss :
    Statement .mainSupplyLoss := of_event _ rfl rfl

theorem backupSupplyFail :
    Statement .backupSupplyFail := of_event _ rfl rfl

theorem frameLeadByte (l : LinkId) :
    Statement (.frameLeadByte l) := of_event _ rfl rfl

end Sys2Proof.Laws.Payload
end

