-- ==== Sys2Proof/Laws/Receive.lean ====
section
/-! SUPPORT. A frame received stands for the command its kind byte names (R183, R184, R190), and the layouts of the replies
are the bytes written out from the spec's tables (R192, R193, R199). -/

namespace Sys2Proof.Machine

/-! ### Frames -/

/-- R190: the command a kind byte names carries the frame's link, kind, tag and payload; it is one of unknown kind exactly
where the byte is no request code. -/
theorem commandOf_spec (l : LinkId) (kind tag : Byte) (p : List Byte) (calen : Bool) :
    requestOf (commandOf l kind tag p calen) = some (l, kind, tag) ∧
      (commandOf l kind tag p calen).payload? = some p ∧
      (commandOf l kind tag p calen).unknownKind? = if kind ∈ requestCodes then none else some kind := by
  have key : ∀ k : Fin 256, requestOf (commandOf l ⟨k⟩ tag p calen) = some (l, ⟨k⟩, tag) ∧
      (commandOf l ⟨k⟩ tag p calen).payload? = some p ∧
      (commandOf l ⟨k⟩ tag p calen).unknownKind? = if (⟨k⟩ : Byte) ∈ requestCodes then none else some ⟨k⟩ := by
    intro k
    fin_cases k <;> exact ⟨rfl, rfl, rfl⟩
  exact key kind.toFin

/-- R190: what a kind byte names can come, whatever it is. -/
theorem commandOf_wellFormed (l : LinkId) (kind tag : Byte) (p : List Byte) (calen : Bool) (h : p.length ≤ 198) :
    (commandOf l kind tag p calen).wellFormed = true := by
  obtain ⟨_, h2, h3⟩ := commandOf_spec l kind tag p calen
  unfold Instr.wellFormed
  rw [h2, h3]
  by_cases hk : kind ∈ requestCodes <;> simp [hk, h]

/-- R190, R186: a byte that is no request code, and no other, gives UNKNOWN_KIND. -/
theorem commandOf_unknown (l : LinkId) (kind tag : Byte) (p : List Byte) (calen : Bool) :
    kind ∉ requestCodes ↔ commandOf l kind tag p calen = .unknownKind l kind tag p := by
  obtain ⟨h1, h2, h3⟩ := commandOf_spec l kind tag p calen
  constructor
  · intro h
    rw [if_neg h] at h3
    cases hc : commandOf l kind tag p calen with
    | unknownKind l' k' t' p' =>
      rw [hc] at h1 h2
      simp only [requestOf, Instr.payload?, Option.some.injEq, Prod.mk.injEq] at h1 h2
      obtain ⟨rfl, rfl, rfl⟩ := h1
      rw [h2]
    | _ => rw [hc] at h3; cases h3
  · intro h hk
    rw [h, if_pos hk] at h3
    cases h3

/-- R183, R184: a whole frame with the CRC over its own bytes is received as the command its kind byte names. -/
theorem received_frameBytes (l : LinkId) (calen : Bool) (kind tag : Byte) (p : List Byte) (h : p.length ≤ 198) :
    received l calen (frameBytes kind tag p) = some (commandOf l kind tag p calen) := by
  have e : (BitVec.ofNat 8 (p.length + 2)).toNat = p.length + 2 := by
    rw [BitVec.toNat_ofNat]; exact Nat.mod_eq_of_lt (by omega)
  have hc : ∀ x : List Byte, x.length = 2 → payloadAndCrc? (p.length + 2) (p ++ x) = some (p, x) := by
    intro x hx
    simp [payloadAndCrc?, hx]
  unfold frameBytes received
  simp only [List.cons_append, e, hc (be2 _) rfl]
  rw [if_neg (by simp), if_neg (by omega), if_neg (by omega)]
  simp

/-! ### Layouts -/

theorem be2_bytes (x : Nat) : be2 x = bytes2 x := rfl
theorem be4_bytes (x : Nat) : be4 x = bytes4 x := rfl

theorem signed4_bytes (x : Int) : signed4 x = bytes4 (x % 4294967296).toNat := by
  unfold signed4
  rw [BitVec.toNat_ofInt]; rfl

theorem weight4_bytes (w : Option Int) : weight4 w = weightBytes w := by
  cases w
  · decide +kernel
  · exact signed4_bytes _

theorem ticketWeighing_bytes (w : Option TicketWeighing) : TicketWeighing.bytes w = weighingBytes w := by
  cases w
  · decide +kernel
  · simp only [TicketWeighing.bytes, weighingBytes, be4_bytes, signed4_bytes, weightBytes]; rfl

/-- R193. -/
theorem ticket_bytes (t : Ticket) : t.bytes = t.record61 := by
  unfold Ticket.bytes Ticket.record61 kilograms4 flags2
  simp only [be4_bytes, be2_bytes, weight4_bytes, ticketWeighing_bytes, plate12]
  congr 1
  · rcases t with ⟨_, k, _, _, _, d, _⟩
    cases k <;> cases d <;> rfl
  · congr 1
    cases t.reversed <;> cases t.flags.tareFallback <;> cases t.flags.reclassified <;> cases t.flags.overstay <;>
      cases t.flags.plateUnchecked <;> cases t.flags.zeroLimit <;> cases t.flags.restartSeen <;> rfl

/-- R199. -/
theorem readClockData_bytes (s : State) : readClockData s = s.clockBytes := by
  unfold readClockData State.clockBytes
  cases s.clock.isSet <;> cases s.journal.counter <;> cases s.power.lastKind <;> cases s.power.lastCheck <;> rfl

/-- R190: the slot pair status. -/
theorem slotStatus_bytes (s : State) (l : LinkId) : slotStatus s l = s.slotPairBytes l := by
  unfold slotStatus State.slotPairBytes
  dsimp only
  generalize s.jlink l = k
  obtain ⟨r, c, n, g, e, o, x, h⟩ := k
  cases e <;> cases o <;> cases x <;> cases h <;> cases r <;> cases c <;> rfl

end Sys2Proof.Machine
end

