-- ==== Sys2Proof/Laws/Register.lean ====
section
/-! SUPPORT. The register's records and bindings under their own operations, and the overstay judgment (R121). -/

namespace Sys2Proof.Machine

theorem find_some {r : Register} {v : Nat} {x : Visit} (h : r.find v = some x) : x ∈ r.visits ∧ x.number = v := by
  have h1 := List.mem_of_find?_eq_some h
  have h2 := List.find?_some h
  exact ⟨h1, by simpa using h2⟩

theorem find_none {r : Register} {v : Nat} : r.find v = none ↔ ∀ x ∈ r.visits, x.number ≠ v := by
  simp [Register.find, List.find?_eq_none]

/-- A change of the visits of one number that keeps the number: the visit found is the changed one. -/
theorem find_update_self {r : Register} {v : Nat} {x : Visit} (f : Visit → Visit)
    (hf : ∀ y, y.number = v → (f y).number = v) (h : r.find v = some x) : (r.update v f).find v = some (f x) := by
  unfold Register.find at h
  show ((r.visits.map (fun x => if x.number == v then f x else x)).find? (fun x => x.number == v)) = _
  generalize r.visits = vs at h
  induction vs with
  | nil => cases h
  | cons y ys ih =>
    by_cases hy : y.number = v
    · have hx : y = x := by simpa [List.find?_cons, hy] using h
      subst hx
      simp [hy, hf y hy]
    · have h' : ys.find? (fun z => z.number == v) = some x := by simpa [List.find?_cons, hy] using h
      simpa [List.find?_cons, hy] using ih h'

/-- No other visit is changed. -/
theorem find_update_ne {r : Register} {v w : Nat} (f : Visit → Visit) (hf : ∀ y, y.number = v → (f y).number = v)
    (h : w ≠ v) : (r.update v f).find w = r.find w := by
  unfold Register.find Register.update
  simp only
  induction r.visits with
  | nil => rfl
  | cons y ys ih =>
    by_cases hy : y.number = v
    · have h1 : ((f y).number == w) = false := by simpa [hf y hy] using fun e : v = w => h e.symm
      have h2 : (y.number == w) = false := by simpa [hy] using fun e : v = w => h e.symm
      have hy' : (y.number == v) = true := by simpa using hy
      rw [List.map_cons, if_pos hy', List.find?_cons, h1, List.find?_cons, h2]
      exact ih
    · have hy' : (y.number == v) = false := by simpa using hy
      simp only [List.map_cons, hy', List.find?_cons, Bool.false_eq_true, if_false]
      split
      · rfl
      · exact ih

theorem update_numbers (r : Register) (v : Nat) (f : Visit → Visit) (hf : ∀ y, y.number = v → (f y).number = v) :
    (r.update v f).visits.map (·.number) = r.visits.map (·.number) := by
  unfold Register.update
  simp only [List.map_map]
  apply List.map_congr_left
  intro y _
  by_cases hy : y.number = v
  · simp [hy, hf y hy]
  · simp [hy]

@[simp] theorem update_bindings (r : Register) (v : Nat) (f : Visit → Visit) : (r.update v f).bindings = r.bindings := rfl
@[simp] theorem update_counter (r : Register) (v : Nat) (f : Visit → Visit) : (r.update v f).counter = r.counter := rfl
@[simp] theorem update_mode (r : Register) (v : Nat) (f : Visit → Visit) : (r.update v f).mode = r.mode := rfl

/-- R98: after the unbinding no lane is bound to the visit, and every other binding stands. -/
theorem unbind_get (r : Register) (v : Nat) (n : LaneId) :
    (r.unbind v).bindings.get n = if r.bindings.get n = some v then none else r.bindings.get n := by
  simp [Register.unbind]

theorem leave_get (r : Register) (v : Nat) (n : LaneId) :
    (r.leave v).bindings.get n = if r.bindings.get n = some v then none else r.bindings.get n :=
  unbind_get r v n

/-- A visit that has left is not found, and every other one still is. -/
theorem find_leave (r : Register) (v w : Nat) : (r.leave v).find w = if w = v then none else r.find w := by
  unfold Register.leave Register.find
  simp only
  by_cases h : w = v
  · subst h
    rw [if_pos rfl, List.find?_eq_none]
    intro x hx
    have := (List.mem_filter.mp hx).2
    simpa using this
  · rw [if_neg h]
    induction r.visits with
    | nil => rfl
    | cons y ys ih =>
      by_cases hy : y.number = v
      · have h1 : (y.number != v) = false := by simp [hy]
        have h2 : (y.number == w) = false := by simpa [hy] using fun e : v = w => h e.symm
        rw [List.filter_cons_of_neg (by simp [h1]), List.find?_cons, h2]
        exact ih
      · rw [List.filter_cons_of_pos (by simpa using hy), List.find?_cons, List.find?_cons]
        split
        · rfl
        · exact ih

/-- The register once a visit is bound to a lane. -/
theorem bind_get (r : Register) (n m : LaneId) (v : Nat) :
    (r.bind n v).bindings.get m = if m = n then some v else r.bindings.get m := by
  simp [Register.bind, get_setAt]

/-- With distinct numbers, a visit of the register is the one found by its number. -/
theorem find_of_mem {r : Register} {x : Visit} (h : r.distinct) (hx : x ∈ r.visits) : r.find x.number = some x := by
  have hn := h.2.1
  unfold Register.find
  clear h
  generalize r.visits = vs at hn hx
  induction vs with
  | nil => cases hx
  | cons y ys ih =>
    rw [List.map_cons, List.nodup_cons] at hn
    rcases List.mem_cons.mp hx with e | e
    · subst e; simp
    · have : y.number ≠ x.number := fun e' => hn.1 (e' ▸ List.mem_map_of_mem e)
      rw [List.find?_cons, show (y.number == x.number) = false by simpa using this]
      exact ih hn.2 e

/-- R121: the judgment changes OVERSTAY flags and offers notices, nothing else. -/
theorem judgeOverstay_frame (s : State) :
    judgeOverstay s = { s with
      register := { s.register with visits := (judgeOverstay s).register.visits }, links := (judgeOverstay s).links } ∧
      OffersOnly s.links (judgeOverstay s).links ∧
      (judgeOverstay s).register.visits.map (·.number) = s.register.visits.map (·.number) ∧
      (judgeOverstay s).register.visits.map (·.state) = s.register.visits.map (·.state) := by
  refine ⟨rfl, offersOnly_foldl _ (fun ks v => offersOnly_offerAll _ _) _ _, ?_, ?_⟩
  · unfold judgeOverstay
    simp only [List.map_map]
    apply List.map_congr_left
    intro y _
    simp only [Function.comp]
    split <;> rfl
  · unfold judgeOverstay
    simp only [List.map_map]
    apply List.map_congr_left
    intro y _
    simp only [Function.comp]
    split <;> rfl

theorem yard_judgeOverstay (s : State) : YardOnly s (judgeOverstay s) :=
  yard_soft s _ s.units s.journal _ (judgeOverstay_frame s).2.1

/-- The visits the judgment flags are those it says: the flag not set, the stay expired (R121). -/
theorem nowOverstays_iff (time limit : Nat) (v : Visit) :
    v.nowOverstays time limit = true ↔ v.overstays time limit := by
  simp [Visit.nowOverstays, Visit.expired, Visit.overstays]
  tauto

end Sys2Proof.Machine
end

