-- ==== Sys2Proof/Laws/Requests.lean ====
section
/-! SUPPORT. What a received frame can do (R184 to R186, R189): a ready link's request is answered, by a refusal that
changes nothing but the link, or by its body. -/

namespace Sys2Proof.Machine

/-- R185: an answered request, with its reply waiting or going out. -/
theorem answer_spec (k : LinkState) (r : Reply) :
    (k.answer r).request = k.request.map (fun q => { q with answered := true }) ∧ (k.answer r).role = k.role ∧
      (k.answer r).mask = k.mask ∧ (k.answer r).speed = k.speed ∧ (k.answer r).rx = k.rx ∧
      (k.answer r).queue = k.queue ∧ (k.answer r).overrun = k.overrun ∧
      (r ∈ (k.answer r).replies ∨ (k.answer r).tx = some (.reply r)) := by
  unfold LinkState.answer
  refine ⟨by simp, by simp, by simp, by simp, by simp, ?_, ?_, ?_⟩
  · rcases kick_cases { k with
      request := k.request.map (fun q => { q with answered := true }), replies := k.replies ++ [r] }
      with h | ⟨_, x, rs, _, h⟩ | ⟨_, hr, _⟩
    · rw [h]
    · rw [h]
    · simp at hr
  · rcases kick_cases { k with
      request := k.request.map (fun q => { q with answered := true }), replies := k.replies ++ [r] }
      with h | ⟨_, x, rs, _, h⟩ | ⟨_, hr, _⟩
    · rw [h]
    · rw [h]
    · simp at hr
  · exact kick_reply _ r (by simp)

/-- An answer keeps what is kept of a notice, and the bounds of the queue. -/
theorem answer_keeps (k : LinkState) (r : Reply) (n : Notice) (h : k.keeps n) : (k.answer r).keeps n :=
  keeps_kick _ n h

theorem answer_bounded (k : LinkState) (r : Reply) (h : k.bounded) : (k.answer r).bounded :=
  bounded_kick _ h

/-- A reply put on a link whose request is being handled. -/
theorem replied_of_handled (u : State) (l : LinkId) (tag code : Byte) (st : Status) (data : List Byte)
    (h : (u.link l).request = some ⟨tag, code, false⟩) :
    (u.setLink l ((u.link l).answer ⟨tag, code, st, data⟩)).replied l tag code st data := by
  obtain ⟨h1, _, _, _, _, _, _, h8⟩ := answer_spec (u.link l) ⟨tag, code, st, data⟩
  refine ⟨?_, ?_⟩
  · rw [setLink_link_self, h1, h]; rfl
  · rw [setLink_link_self]; exact h8

/-- The state in which the body of a ready link's request runs. -/
def State.handling (s : State) (l : LinkId) (code tag : Byte) : State := s.setLink l ((s.link l).take code tag)

theorem ready_unfold {s : State} {l : LinkId} (h : s.ready l) :
    s.taking = true ∧ s.power.phase = .running ∧ (s.link l).role ≠ .disabled ∧ (s.link l).request = none := by
  obtain ⟨hu, hr, hq⟩ := h
  simp only [State.up, Bool.and_eq_true, beq_iff_eq] at hu
  exact ⟨hu.1, hu.2, hr, hq⟩

/-- A ready link's request is handled and answered. -/
theorem request_ready {α : Type} {l : LinkId} {s : State} (h : s.ready l) (code tag : Byte) (allowed : Role → Bool)
    (fields : Option α) (body : α → State → Answer) :
    request l code tag allowed fields body s =
      (handle l allowed fields body (s.handling l code tag)).state.setLink l
        (((handle l allowed fields body (s.handling l code tag)).state.link l).answer
          ⟨tag, code, (handle l allowed fields body (s.handling l code tag)).status,
            (handle l allowed fields body (s.handling l code tag)).data⟩) := by
  obtain ⟨h1, _, h3, h4⟩ := ready_unfold h
  have e : (!s.taking || (s.link l).role == .disabled) = false := by simp [h1, h3]
  simp only [request, e, h4]
  rfl

/-- A request refused at once (R186): its reply, without data, and nothing but the link changes. -/
theorem request_refuse {α : Type} {l : LinkId} {s : State} (h : s.ready l) (code tag : Byte) (allowed : Role → Bool)
    (fields : Option α) (body : α → State → Answer) (st : Status)
    (hr : handle l allowed fields body (s.handling l code tag) = refuse st (s.handling l code tag)) :
    (request l code tag allowed fields body s).replied l tag code st [] ∧
      s.onlyLink (request l code tag allowed fields body s) l := by
  rw [request_ready h, hr]
  refine ⟨replied_of_handled _ l tag code st [] ?_, ?_⟩
  · simp [refuse, State.handling, LinkState.take]
  · simp [State.onlyLink, refuse, State.handling]

/-- A well-formed request of a permitted role runs its body. -/
theorem request_body {α : Type} {l : LinkId} {s : State} (h : s.ready l) (code tag : Byte) (allowed : Role → Bool)
    (x : α) (body : α → State → Answer) (ha : allowed (s.link l).role = true) :
    handle l allowed (some x) body (s.handling l code tag) = body x (s.handling l code tag) := by
  obtain ⟨_, h2, _, _⟩ := ready_unfold h
  have e1 : (s.handling l code tag).power.phase ≠ .starting := by
    show s.power.phase ≠ .starting
    rw [h2]; simp
  have e2 : allowed ((s.handling l code tag).link l).role = true := by
    simpa [State.handling, LinkState.take] using ha
  simp [handle, e1, e2]

/-- A request whose fields cannot be read is refused BAD_REQUEST, before the permission (R186). -/
theorem request_badRequest {α : Type} {l : LinkId} {s : State} (h : s.ready l) (code tag : Byte)
    (allowed : Role → Bool) (body : α → State → Answer) :
    handle l allowed none body (s.handling l code tag) = refuse .badRequest (s.handling l code tag) := by
  obtain ⟨_, h2, _, _⟩ := ready_unfold h
  have e1 : (s.handling l code tag).power.phase ≠ .starting := by
    show s.power.phase ≠ .starting
    rw [h2]; simp
  simp [handle, e1]

/-- A request of a role that may not send it is refused NOT_PERMITTED (R189). -/
theorem request_notPermitted {α : Type} {l : LinkId} {s : State} (h : s.ready l) (code tag : Byte)
    (allowed : Role → Bool) (x : α) (body : α → State → Answer) (ha : allowed (s.link l).role = false) :
    handle l allowed (some x) body (s.handling l code tag) = refuse .notPermitted (s.handling l code tag) := by
  obtain ⟨_, h2, _, _⟩ := ready_unfold h
  have e1 : (s.handling l code tag).power.phase ≠ .starting := by
    show s.power.phase ≠ .starting
    rw [h2]; simp
  have e2 : allowed ((s.handling l code tag).link l).role = false := by
    simpa [State.handling, LinkState.take] using ha
  simp [handle, e1, e2]

/-- The body's answer reaches the link, where the body leaves the link's request (all bodies do). -/
theorem request_answer {α : Type} {l : LinkId} {s : State} (h : s.ready l) (code tag : Byte) (allowed : Role → Bool)
    (x : α) (body : α → State → Answer) (ha : allowed (s.link l).role = true) (a : Answer)
    (hb : body x (s.handling l code tag) = a)
    (hq : (a.state.link l).request = ((s.handling l code tag).link l).request) :
    request l code tag allowed (some x) body s =
        a.state.setLink l ((a.state.link l).answer ⟨tag, code, a.status, a.data⟩) ∧
      (request l code tag allowed (some x) body s).replied l tag code a.status a.data := by
  have e : request l code tag allowed (some x) body s =
      a.state.setLink l ((a.state.link l).answer ⟨tag, code, a.status, a.data⟩) := by
    rw [request_ready h, request_body h code tag allowed x body ha, hb]
  refine ⟨e, ?_⟩
  rw [e]
  refine replied_of_handled _ l tag code a.status a.data ?_
  rw [hq]
  simp [State.handling, LinkState.take]

/-- A body whose work is the yard's leaves the link's request. -/
theorem yard_request {u t : State} (h : YardOnly u t) (l : LinkId) : (t.link l).request = (u.link l).request :=
  (h.links.fixed l).2.2.2.2

/-- The yard's work in a body and the close of its event. -/
theorem yard_taken (before u : State) (st : Status) (data : List Byte) (h : YardOnly before u) :
    YardOnly before (taken before u st data).state :=
  h.trans (yard_finish _ _)

/-- Checks that all hold let the request go on; the first that fails refuses it. -/
theorem checked_spec (checks : List (Bool × Status)) (s : State) (go : Answer) :
    ((∀ p ∈ checks, p.1 = true) → checked checks s go = go) ∧
      (∀ st, firstFailure checks = some st → checked checks s go = refuse st s) := by
  refine ⟨fun h => ?_, fun st h => ?_⟩
  · have : checks.find? (fun p => !p.1) = none := by
      rw [List.find?_eq_none]
      intro p hp
      simp [h p hp]
    simp [checked, firstFailure, this]
  · simp [checked, h]

end Sys2Proof.Machine
end

