-- ==== Sys2Proof/Laws/Store.lean ====
section
/-! SUPPORT. What the store's operations can do: starting, completing and abandoning a write, and a record that takes
effect. -/

namespace Sys2Proof.Machine

/-- Outside the store, the cells, the decks, the lanes' setup and the register everything stays, and the links change by
offers alone. -/
structure StoreOnly (s t : State) : Prop where
  clock : t.clock = s.clock
  power : t.power = s.power
  pending : t.pending = s.pending
  freeIndex : t.freeIndex = s.freeIndex
  journal : t.journal = s.journal
  links : OffersOnly s.links t.links

theorem StoreOnly.refl (s : State) : StoreOnly s s := ⟨rfl, rfl, rfl, rfl, rfl, OffersOnly.refl _⟩

theorem StoreOnly.trans {a b c : State} (h : StoreOnly a b) (h' : StoreOnly b c) : StoreOnly a c :=
  ⟨h'.clock.trans h.clock, h'.power.trans h.power, h'.pending.trans h.pending, h'.freeIndex.trans h.freeIndex,
    h'.journal.trans h.journal, h.links.trans h'.links⟩

/-- The yard's work that leaves the journal. -/
theorem StoreOnly.of_yard {s t : State} (h : YardOnly s t) (hj : t.journal = s.journal) : StoreOnly s t :=
  ⟨h.clock, h.power, h.pending, h.freeIndex, hj, h.links⟩

/-- R132: a started write is in flight and takes 8 ms; nothing else changes. -/
theorem startWrite_spec (w : StoreWrite) (z : Option DeckId) (s : State) :
    startWrite w z s = { s with store := { s.store with engine := some ⟨w, z, 8⟩ } } := rfl

/-- R132 step 1 changes one stored entry or record. -/
theorem complete_frame (st : Store) (w : StoreWrite) :
    (st.complete w).engine = st.engine ∧ (st.complete w).yardSetup = st.yardSetup ∧
      (st.complete w).yardBad = st.yardBad ∧ (st.complete w).lostList = st.lostList := by
  unfold Store.complete
  split <;> exact ⟨rfl, rfl, rfl, rfl⟩

/-- R131: an abandoned write leaves the content as it was, or tears the place it was to change; what stood there already
cannot be torn. -/
theorem abandoned_spec (st : Store) (w : StoreWrite) (torn : Bool) :
    (st.abandoned w torn = st ∨ ¬st.standsAlready w ∧ st.abandoned w torn = st.tear w) ∧
      (st.standsAlready w → st.abandoned w torn = st) := by
  have hc : st.changedBy w = true ↔ ¬st.standsAlready w := by
    unfold Store.changedBy Store.standsAlready
    split <;> exact decide_eq_true_iff
  unfold Store.abandoned
  by_cases h : st.changedBy w = true
  · refine ⟨?_, fun hs => absurd hs (hc.mp h)⟩
    cases torn
    · exact Or.inl rfl
    · exact Or.inr ⟨hc.mp h, by simp [h]⟩
  · have e : (torn && st.changedBy w) = false := by simp [h]
    rw [e]
    exact ⟨Or.inl rfl, fun _ => rfl⟩

/-- R131: an abandoned write leaves the engine IDLE; statuses, the yard setup and the lost list stay, and outside the
store only the free value's place moves on. -/
theorem abandonWrite_frame (s : State) :
    abandonWrite s = { s with store := (abandonWrite s).store, freeIndex := (abandonWrite s).freeIndex } ∧
      (abandonWrite s).store.engine = none ∧ (abandonWrite s).store.yardSetup = s.store.yardSetup ∧
      (abandonWrite s).store.yardBad = s.store.yardBad ∧ (abandonWrite s).store.lostList = s.store.lostList ∧
      (s.store.engine = none → abandonWrite s = s) := by
  unfold abandonWrite
  cases h : s.store.engine with
  | none => exact ⟨rfl, h, rfl, rfl, rfl, fun _ => rfl⟩
  | some g =>
    refine ⟨rfl, rfl, ?_, ?_, ?_, fun e => by cases e⟩ <;>
    · dsimp only
      rcases (abandoned_spec s.store g.write (Config.writeTorn s.freeIndex)).1 with e | ⟨_, e⟩
      · rw [e]
      · rw [e]; unfold Store.tear; split <;> rfl

/-- R131: the store once the write in flight has been abandoned. -/
theorem abandonWrite_store (s : State) : s.abandonsWrite (abandonWrite s) := by
  unfold State.abandonsWrite abandonWrite
  refine ⟨fun h => by rw [h], fun g h => ?_⟩
  rw [h]
  dsimp only
  rcases (abandoned_spec s.store g.write (Config.writeTorn s.freeIndex)).1 with e | ⟨n, e⟩
  · exact Or.inl (by rw [e])
  · exact Or.inr ⟨n, by rw [e]⟩

/-! ### A record takes effect -/

/-- R23: an emptied window. -/
theorem emptyWindow_frame (d : DeckId) (s : State) :
    YardOnly s (emptyWindow d s) ∧ (emptyWindow d s).journal = s.journal ∧ (emptyWindow d s).lanes = s.lanes ∧
      (emptyWindow d s).register = s.register ∧ (emptyWindow d s).units = s.units ∧
      (emptyWindow d s).deck d = (s.deck d).emptied ∧ ∀ e, e ≠ d → (emptyWindow d s).deck e = s.deck e := by
  refine ⟨?_, rfl, rfl, rfl, rfl, get_setAt_self _ _ _, fun e he => get_setAt_ne _ _ he⟩
  refine YardOnly.trans (b := { s with channels := mapMembers d Channel.emptied s.channels })
    (yard_channels s s.period _ (fun c => ?_)) (yard_setDeck _ d _ rfl rfl)
  rw [get_mapMembers]
  split <;> rfl

theorem store_deckChange (d : DeckId) (new : DeckState) (c : WakeCause) (s : State) :
    StoreOnly s (deckChange d new c s) :=
  .of_yard (yard_deckChange d new c s) (deckChange_frame d new c s).2.2.2.2.2.1

theorem store_leaveFault (d : DeckId) (s : State) : StoreOnly s (leaveFault d s) := by
  unfold leaveFault
  split
  · exact store_deckChange _ _ _ s
  · exact StoreOnly.refl s

theorem store_leaveUnused (d : DeckId) (s : State) : StoreOnly s (leaveUnused d s) := by
  unfold leaveUnused
  split
  · exact store_deckChange _ _ _ s
  · exact StoreOnly.refl s

theorem store_becomeUnused (d : DeckId) (s : State) : StoreOnly s (becomeUnused d s) := by
  unfold becomeUnused
  split
  · exact store_deckChange _ _ _ s
  · exact StoreOnly.refl s

theorem store_emptyWindow (d : DeckId) (s : State) : StoreOnly s (emptyWindow d s) :=
  .of_yard (emptyWindow_frame d s).1 rfl

/-- R98, R71: the setup a record brings into effect on a lane: the record's, but a bound lane's direction stays. -/
theorem setupFrom_spec (s : State) (n : LaneId) (u : LaneSetup) :
    (s.bound n = none → s.setupFrom n u = u) ∧
      ((s.bound n).isSome = true → s.setupFrom n u = { u with direction := (s.lane n).setup.direction }) := by
  refine ⟨fun h => ?_, fun h => ?_⟩ <;> simp [State.setupFrom, h]

theorem store_takesEffect (w : StoreWrite) (s : State) : StoreOnly s (takesEffect w s) := by
  unfold takesEffect
  split
  · exact StoreOnly.refl s
  · rename_i c r
    have h0 : StoreOnly s (s.setChan c ((s.chan c).calibrated r)) := ⟨rfl, rfl, rfl, rfl, rfl, OffersOnly.refl _⟩
    unfold calTakesEffect
    dsimp only
    split
    · split
      · exact h0
      · exact h0.trans (store_emptyWindow _ _)
    · refine h0.trans (StoreOnly.trans (b := deckLeft (s.chan c).cal.deck (s.setChan c ((s.chan c).calibrated r))) ?_ ?_)
      · unfold deckLeft
        split
        · exact StoreOnly.refl _
        · exact ((store_emptyWindow _ _).trans (store_becomeUnused _ _)).trans (store_leaveFault _ _)
      · unfold deckJoined
        split
        · exact StoreOnly.refl _
        · exact (store_emptyWindow _ _).trans (store_leaveUnused _ _)
  · rename_i d u
    have h0 : StoreOnly s (s.setDeck d ((s.deck d).withSetup u)) := ⟨rfl, rfl, rfl, rfl, rfl, OffersOnly.refl _⟩
    exact (h0.trans (store_emptyWindow _ _)).trans (store_leaveUnused _ _)
  · exact ⟨rfl, rfl, rfl, rfl, rfl, OffersOnly.refl _⟩
  · rename_i u
    unfold yardSetupTakesEffect
    dsimp only
    have h0 : StoreOnly s { s with store := { s.store with yardSetup := u, yardBad := false } } :=
      ⟨rfl, rfl, rfl, rfl, rfl, OffersOnly.refl _⟩
    have h1 : ∀ v : State, StoreOnly s v → StoreOnly s (if u.p = s.store.yardSetup.p then v else restartPeriod u.p v) := by
      intro v hv
      split
      · exact hv
      · exact hv.trans ⟨rfl, rfl, rfl, rfl, rfl, OffersOnly.refl _⟩
    split
    · exact h1 _ h0
    · exact (h1 _ h0).trans (.of_yard (yard_judgeOverstay _) rfl)

/-- R132 step 3. -/
theorem store_engineNext (z : Option DeckId) (s : State) : StoreOnly s (engineNext z s) := by
  unfold engineNext
  split
  · exact ⟨rfl, rfl, rfl, rfl, rfl, OffersOnly.refl _⟩
  · dsimp only
    split
    · exact ⟨rfl, rfl, rfl, rfl, rfl, OffersOnly.refl _⟩
    · exact ⟨rfl, rfl, rfl, rfl, rfl, OffersOnly.refl _⟩

/-- R132: a completed write, with what it can touch, and "write done" told. -/
theorem completeWrite_frame (s : State) :
    StoreOnly s (completeWrite s) ∧
      ∀ g, s.store.engine = some g → s.tells (completeWrite s) (.storeDone g.write.place.1 g.write.place.2) := by
  unfold completeWrite
  cases h : s.store.engine with
  | none => exact ⟨StoreOnly.refl s, fun g e => by cases e⟩
  | some g =>
    dsimp only
    have h0 : StoreOnly s { s with store := s.store.complete g.write } := ⟨rfl, rfl, rfl, rfl, rfl, OffersOnly.refl _⟩
    have h1 := (h0.trans (store_takesEffect g.write _)).trans (store_engineNext g.zeroCal _)
    refine ⟨h1.trans ⟨rfl, rfl, rfl, rfl, rfl, offersOnly_offerAll _ _⟩, fun g' e l => ?_⟩
    cases e
    refine told_of_fixed _ _ _ _ (h1.links.fixed l).2.1 (h1.links.fixed l).2.2.1
      (told_offerAll _ _ l (fun w e => by cases e))

end Sys2Proof.Machine
end

