-- ==== Sys2Proof/Laws/StartUp.lean ====
section
/-! SUPPORT. What resets and start-up can do: the working state cleared, the straps read, the backup check, the come-ups. -/

namespace Sys2Proof.Machine

/-- R204 step 1: outputs inactive, the backup domain and the store kept, start-up phase. -/
theorem clearWorking_spec (s : State) :
    (clearWorking s).outputsOff ∧ s.keepsBackup (clearWorking s) ∧ (clearWorking s).store = s.store ∧
      (clearWorking s).pending = s.pending ∧ (clearWorking s).freeIndex = s.freeIndex ∧
      (clearWorking s).power = { s.power with phase := .starting, restartDue := false } ∧
      (∀ n, ((clearWorking s).lane n).barrier = .unresolved ∧ ((clearWorking s).lane n).settled = false ∧
        ((clearWorking s).lane n).setup = (s.lane n).setup) ∧
      (∀ c, ((clearWorking s).chan c).cal = (s.chan c).cal) ∧
      ∀ d, ((clearWorking s).deck d).setup = (s.deck d).setup := by
  have hl : ∀ n, (clearWorking s).lane n = (s.lane n).cleared := fun n => get_map _ _ _
  have hd : ∀ d, (clearWorking s).deck d = (s.deck d).cleared := fun d => get_map _ _ _
  have hc : ∀ c, (clearWorking s).chan c = (s.chan c).cleared := fun c => get_map _ _ _
  have hk : ∀ l, (clearWorking s).link l = (s.link l).cleared := fun l => get_map _ _ _
  have hj : ∀ l, (clearWorking s).jlink l = (s.jlink l).cleared := fun l => get_map _ _ _
  refine ⟨⟨fun n => ?_, fun d => ?_⟩, ⟨rfl, rfl, rfl, rfl, fun l => ?_, fun d => ?_⟩, rfl, rfl, rfl, rfl, fun n => ?_,
    fun c => ?_, fun d => ?_⟩
  · rw [hl]; exact ⟨rfl, rfl, rfl⟩
  · rw [hd]; rfl
  · rw [hj, hk]; exact ⟨rfl, rfl, rfl, rfl⟩
  · rw [hd]; exact ⟨rfl, rfl⟩
  · rw [hl]; exact ⟨rfl, rfl, rfl⟩
  · rw [hc]; rfl
  · rw [hd]; rfl

/-- R200, R202: the part stopped: as cleared, with no write in flight. -/
theorem halt_spec (s : State) :
    (halt s).outputsOff ∧ s.keepsBackup (halt s) ∧ (halt s).store.engine = none ∧ (halt s).pending = s.pending ∧
      (halt s).power = { s.power with phase := .starting, restartDue := false } := by
  obtain ⟨h1, h2, _⟩ := abandonWrite_frame s
  obtain ⟨g1, g2, g3, g4, _, g6, _⟩ := clearWorking_spec (abandonWrite s)
  refine ⟨g1, ?_, ?_, ?_, ?_⟩
  · have e : ∀ u, (abandonWrite s).keepsBackup u → s.keepsBackup u := by
      rw [h1]; exact fun u hu => hu
    exact e _ g2
  · show (clearWorking (abandonWrite s)).store.engine = none
    rw [g3]; exact h2
  · show (clearWorking (abandonWrite s)).pending = s.pending
    rw [g4, h1]
  · show (clearWorking (abandonWrite s)).power = _
    rw [g6, h1]

/-- R204 steps 1 and 2: the links as the straps make them, the kind recorded, the backup domain kept. -/
theorem beginStart_spec (kind : ResetKind) (straps : Straps) (s : State) :
    (beginStart kind straps s).outputsOff ∧ s.keepsBackup (beginStart kind straps s) ∧
      (beginStart kind straps s).store = s.store ∧ (beginStart kind straps s).pending = s.pending ∧
      (beginStart kind straps s).power = { s.power with
        phase := .starting, restartDue := false, lastKind := kind, lastCheck := .notChecked
        checkPending := s.power.checkPending || kind == .powerOn } ∧
      ∀ l, (beginStart kind straps s).link l =
        ⟨(straps.get l).speed, roleOf (straps.get l).role, none, none, [], none, [], (s.link l).mask, false⟩ := by
  obtain ⟨h1, h2, h3, h4, _⟩ := clearWorking_spec s
  have hk : ∀ l, (beginStart kind straps s).link l =
      ⟨(straps.get l).speed, roleOf (straps.get l).role, none, none, [], none, [], (s.link l).mask, false⟩ := by
    intro l
    have e : (beginStart kind straps s).link l = ((clearWorking s).link l).strapped (straps.get l) := get_ofFn _ _
    rw [e]
    have hm : ((clearWorking s).link l).mask = (s.link l).mask := (h2.2.2.2.2.1 l).2.2.2
    simp [LinkState.strapped, LinkState.cleared, hm]
  refine ⟨h1, ⟨h2.1, h2.2.1, h2.2.2.1, h2.2.2.2.1, fun l => ?_, h2.2.2.2.2.2⟩, h3, h4, rfl, hk⟩
  obtain ⟨a, b, c, _⟩ := h2.2.2.2.2.1 l
  exact ⟨a, b, c, by rw [hk l]⟩

/-- R201, R202: the backup check. -/
theorem backupCheck_spec (s : State) :
    (s.power.checkPending = false → backupCheck s = s) ∧
      (s.power.checkPending = true → s.power.backupValid = true →
        backupCheck s = { s with power := { s.power with
          lastKind := .powerOn, lastCheck := .valid, backupValid := true, checkPending := false } }) ∧
      (s.power.checkPending = true → s.power.backupValid = false →
        backupCheck s = { clearBackup s with power := { s.power with
          lastKind := .powerOn, lastCheck := .cleared, backupValid := true, checkPending := false } }) := by
  refine ⟨fun h => by simp [backupCheck, h], fun h h' => by simp [backupCheck, h, h'], fun h h' => by
    simp [backupCheck, h, h']⟩

/-! ### The come-ups -/

/-- R128: a visit after a reset keeps its number and registration. -/
theorem visitAfterReset_frame (v : Visit) :
    v.afterReset.number = v.number ∧ v.afterReset.plate = v.plate ∧ v.afterReset.flags.restartSeen = true ∧
      v.afterReset.capMark = false ∧ v.afterReset.state ≠ .weighOut := by
  unfold Visit.afterReset
  cases v.state <;> simp
  split <;> simp

theorem decksUp_frame (s : State) : YardOnly s (decksUp s) ∧ (decksUp s).register = s.register ∧
    (decksUp s).journal = s.journal ∧ (decksUp s).units = s.units ∧ (decksUp s).lanes = s.lanes ∧
    (decksUp s).links = s.links := by
  have h0 : YardOnly s { s with decks := Vector.ofFn (fun d => (s.deck d).comeUp (s.lane d).setup.wake) } := by
    refine yard_decks s _ (fun d => ?_)
    rw [get_ofFn]
    exact ⟨rfl, rfl⟩
  have key : ∀ (ds : List DeckId) (u : State),
      YardOnly u (ds.foldl (fun s d => enterDeck d (firstState s d) .request s) u) ∧
      (ds.foldl (fun s d => enterDeck d (firstState s d) .request s) u).register = u.register ∧
      (ds.foldl (fun s d => enterDeck d (firstState s d) .request s) u).journal = u.journal ∧
      (ds.foldl (fun s d => enterDeck d (firstState s d) .request s) u).units = u.units ∧
      (ds.foldl (fun s d => enterDeck d (firstState s d) .request s) u).lanes = u.lanes ∧
      (ds.foldl (fun s d => enterDeck d (firstState s d) .request s) u).links = u.links := by
    intro ds
    induction ds with
    | nil => intro u; exact ⟨YardOnly.refl u, rfl, rfl, rfl, rfl, rfl⟩
    | cons d ds ih =>
      intro u
      obtain ⟨a, b, c, e, f, g⟩ := ih (enterDeck d (firstState u d) .request u)
      exact ⟨(yard_enterDeck _ _ _ u).trans a, b, c, e, f, g⟩
  obtain ⟨a, b, c, e, f, g⟩ := key allDecks
    { s with decks := Vector.ofFn (fun d => (s.deck d).comeUp (s.lane d).setup.wake) }
  exact ⟨h0.trans a, b, c, e, f, g⟩

/-- R87: the lanes come up. -/
theorem lanesUp_frame (s : State) :
    YardOnly s (lanesUp s) ∧ (lanesUp s).register = s.register ∧ (lanesUp s).journal = s.journal ∧
      (lanesUp s).units = s.units ∧ (lanesUp s).decks = s.decks ∧ (lanesUp s).channels = s.channels ∧
      (lanesUp s).period = s.period ∧ ∀ n, ∃ w, (lanesUp s).lane n = { (s.lane n).comeUp with word := w } := by
  have hg : ∀ n, ∃ w, (lanesUp s).lane n = { (s.lane n).comeUp with word := w } := by
    intro n
    refine ⟨statusWord { s with lanes := s.lanes.map Lane.comeUp } n, ?_⟩
    have e : (lanesUp s).lane n = { (({ s with lanes := s.lanes.map Lane.comeUp } : State).lane n) with
        word := statusWord { s with lanes := s.lanes.map Lane.comeUp } n } := get_ofFn _ _
    rw [e]
    have e' : ({ s with lanes := s.lanes.map Lane.comeUp } : State).lane n = (s.lane n).comeUp := get_map _ _ _
    rw [e']
  refine ⟨?_, rfl, rfl, rfl, rfl, rfl, rfl, hg⟩
  have ho : OffersOnly s.links (lanesUp s).links := offersOnly_foldl _ (fun ks n => offersOnly_offerAll _ _) _ _
  have h1 : YardOnly s { s with lanes := (lanesUp s).lanes } := by
    refine yard_lanes s _ (fun n => ?_)
    obtain ⟨w, e⟩ := hg n
    show ((lanesUp s).lane n).setup = _ ∧ ((lanesUp s).lane n).setupBad = _
    rw [e]
    exact ⟨rfl, rfl⟩
  exact h1.trans (yard_links { s with lanes := (lanesUp s).lanes } _ ho)

/-- R204 steps 5 to 14: what the come-ups leave, and the register as they make it. -/
theorem comeUps_spec (s : State) :
    (comeUps s).clock = s.clock ∧ (comeUps s).pending = s.pending ∧ (comeUps s).freeIndex = s.freeIndex ∧
      (comeUps s).store = { s.store with lostList := [] } ∧
      (comeUps s).power = { s.power with phase := .running } ∧ (comeUps s).units = s.units ∧
      (comeUps s).period = some (periodLength s.store.yardSetup.p) ∧
      (comeUps s).journal.records = s.journal.records ∧ (comeUps s).journal.counter = s.journal.counter ∧
      (comeUps s).register.mode = s.register.mode ∧ (comeUps s).register.counter = s.register.counter ∧
      (comeUps s).register.visits.map (·.number) = s.register.visits.map (·.number) ∧
      OffersOnly s.links (comeUps s).links := by
  obtain ⟨d1, d2, d3, d4, d5, d6⟩ := decksUp_frame (cellsUp (registerUp s))
  obtain ⟨l1, l2, l3, l4, l5, l6, l7, _⟩ := lanesUp_frame (decksUp (cellsUp (registerUp s)))
  generalize hu : lanesUp (decksUp (cellsUp (registerUp s))) = u at l1 l2 l3 l4 l5 l6 l7
  have hy := d1.trans l1
  have hp : u.period = some (periodLength s.store.yardSetup.p) := by
    have hdp : (decksUp (cellsUp (registerUp s))).period = (cellsUp (registerUp s)).period := by
      have key : ∀ (ds : List DeckId) (u : State),
          (ds.foldl (fun s d => enterDeck d (firstState s d) .request s) u).period = u.period := by
        intro ds
        induction ds with
        | nil => intro u; rfl
        | cons d ds ih => intro u; exact ih _
      exact key allDecks _
    rw [l7, hdp]; rfl
  have hs : ∀ (ks : Vector LinkState 3) (ps : List (StoreArea × Nat)), OffersOnly ks (ps.foldl (fun ks (p : StoreArea × Nat) => offerAll ks (.storeLost p.1 p.2)) ks) :=
    fun ks ps => offersOnly_foldl _ (fun ks p => offersOnly_offerAll _ _) ps ks
  have hf : fillAll (journalUp (storeUp u)) = { journalUp (storeUp u) with
      journal := { (journalUp (storeUp u)).journal with links := (fillAll (journalUp (storeUp u))).journal.links }
      links := (fillAll (journalUp (storeUp u))).links } := fillAll_frame _
  have hfl := (yard_fillAll (journalUp (storeUp u))).links
  have hjl : OffersOnly (storeUp u).links (journalUp (storeUp u)).links := (judgeLow_frame _).2
  have hsl : OffersOnly u.links (storeUp u).links := hs _ _
  generalize hw : fillAll (journalUp (storeUp u)) = w at hf hfl
  have hc : comeUps s = endStart w := by subst hw; subst hu; rfl
  obtain ⟨o1, o2, o3, _⟩ := judgeOverstay_frame { w with power := { w.power with phase := .running } }
  have hr : w.register = s.register.afterReset := by rw [hf]; exact l2.trans d2
  have hstore : w.store = { s.store with lostList := [] } := by
    rw [hf]
    show ({ u.store with lostList := [] } : Store) = _
    rw [hy.store]; rfl
  rw [hc]
  refine ⟨?_, ?_, ?_, ?_, ?_, ?_, ?_, ?_, ?_, ?_, ?_, ?_, ?_⟩
  · show w.clock = s.clock
    rw [hf]; exact hy.clock
  · show w.pending = s.pending
    rw [hf]; exact hy.pending
  · show w.freeIndex = s.freeIndex
    rw [hf]; exact hy.freeIndex
  · exact hstore
  · show ({ w.power with phase := .running } : Power) = _
    rw [show w.power = s.power by rw [hf]; exact hy.power]
  · show w.units = s.units
    rw [hf]; exact l4.trans d4
  · show w.period = _
    rw [hf]; exact hp
  · show w.journal.records = _
    rw [hf]
    show u.journal.records = _
    rw [l3, d3]; rfl
  · show w.journal.counter = _
    rw [hf]
    show u.journal.counter = _
    rw [l3, d3]; rfl
  · show w.register.mode = _
    rw [hr]; rfl
  · show w.register.counter = _
    rw [hr]; rfl
  · refine Eq.trans o3 ?_
    show w.register.visits.map (·.number) = _
    rw [hr]
    show (s.register.visits.map Visit.afterReset).map (·.number) = _
    rw [List.map_map]
    exact List.map_congr_left (fun v _ => (visitAfterReset_frame v).1)
  · exact ((((hy.links).trans hsl).trans hjl).trans hfl).trans o2

end Sys2Proof.Machine
end

