-- ==== Sys2Proof/Laws/Words.lean ====
section
/-! SUPPORT. The lane status words (R91): a queued word stays queued until a word of the same lane replaces it, the close
of an event shows every lane's word and tells the changed ones, and no operation before it touches a word. -/

namespace Sys2Proof.Machine

/-! ### A word in a queue -/

/-- A merge keeps the words of every other lane. -/
theorem mergeWord_keeps_other (w v : StatusWord) (q q' : List Notice) (h : mergeWord w q = some q') (hv : v.lane ≠ w.lane)
    (hq : .laneStatus v ∈ q) : .laneStatus v ∈ q' := by
  induction q generalizing q' with
  | nil => cases hq
  | cons x q ih =>
    cases x with
    | laneStatus w' =>
      simp only [mergeWord] at h
      split at h
      · rename_i hw
        simp only [Option.some.injEq] at h
        subst h
        rcases List.mem_cons.mp hq with e | e
        · injection e with e
          exact absurd (e ▸ hw) hv
        · exact List.mem_cons_of_mem _ e
      · simp only [Option.map_eq_some_iff] at h
        obtain ⟨a, ha, rfl⟩ := h
        rcases List.mem_cons.mp hq with e | e
        · exact e ▸ List.mem_cons_self
        · exact List.mem_cons_of_mem _ (ih a ha e)
    | _ =>
      simp only [mergeWord, Option.map_eq_some_iff] at h
      obtain ⟨a, ha, rfl⟩ := h
      rcases List.mem_cons.mp hq with e | e
      · cases e
      · exact List.mem_cons_of_mem _ (ih a ha e)

/-- A merged word stands in the queue. -/
theorem mergeWord_self (w : StatusWord) (q q' : List Notice) (h : mergeWord w q = some q') : .laneStatus w ∈ q' := by
  induction q generalizing q' with
  | nil => cases h
  | cons x q ih =>
    cases x with
    | laneStatus w' =>
      simp only [mergeWord] at h
      split at h
      · simp only [Option.some.injEq] at h
        exact h ▸ List.mem_cons_self
      · simp only [Option.map_eq_some_iff] at h
        obtain ⟨a, ha, rfl⟩ := h
        exact List.mem_cons_of_mem _ (ih a ha)
    | _ =>
      simp only [mergeWord, Option.map_eq_some_iff] at h
      obtain ⟨a, ha, rfl⟩ := h
      exact List.mem_cons_of_mem _ (ih a ha)

/-- An offer keeps a word that is kept, unless it offers another word of the same lane. -/
theorem keeps_word_offer (k : LinkState) (m : Notice) (v : StatusWord) (hm : m.isWordOf v.lane = false)
    (h : k.keeps (.laneStatus v)) : (k.offer m).keeps (.laneStatus v) := by
  unfold LinkState.offer
  split
  · apply keeps_kick
    rcases enqueue_eq k m with ⟨w, q, hw, hq, e⟩ | ⟨_, e⟩
    · have hl : v.lane ≠ w.lane := by
        subst hw
        exact fun e => by simp [Notice.isWordOf, e] at hm
      rw [e]
      rcases h with (h | h) | h | (h | h)
      · left; left; exact mergeWord_keeps_other w v _ _ hq hl h
      · left; right; exact h
      · right; left; exact h
      · right; right; left; exact mergeWord_mem w _ _ hq .overrun (fun _ e => by cases e) h
      · right; right; right; exact h
    · rw [e]; exact keeps_join k m _ h
  · exact h

/-- An offered notice is told, a word too. -/
theorem told_offer_any (k : LinkState) (n : Notice) : k.told (k.offer n) n := by
  intro ht
  unfold LinkState.offer
  rw [if_pos ht]
  apply keeps_kick
  rcases enqueue_eq k n with ⟨w, q, hw, hq, e⟩ | ⟨_, e⟩
  · rw [e, hw]; exact Or.inl (Or.inl (mergeWord_self w _ _ hq))
  · rw [e]; exact keeps_join_self k n

/-! ### The words shown -/

theorem wordShown_iff (s : State) (n : LaneId) : s.wordShown n ↔ (s.lane n).word = statusWord s n := Iff.rfl

/-- The words offered for the changed lanes: each is told, and the later ones, of other lanes, leave it so. -/
theorem told_words (word : LaneId → StatusWord) (hw : ∀ n, (word n).lane = n) (changed : LaneId → Prop)
    [DecidablePred changed] (ns : List LaneId) (hn : ns.Nodup) (ks : Vector LinkState 3) (n : LaneId) (h : n ∈ ns)
    (hc : changed n) (l : LinkId) :
    (ks.get l).told
      ((ns.foldl (fun ks n => if changed n then offerAll ks (.laneStatus (word n)) else ks) ks).get l)
      (.laneStatus (word n)) := by
  have later : ∀ (ms : List LaneId) (ks : Vector LinkState 3), n ∉ ms → (ks.get l).keeps (.laneStatus (word n)) →
      ((ms.foldl (fun ks n => if changed n then offerAll ks (.laneStatus (word n)) else ks) ks).get l).keeps
        (.laneStatus (word n)) := by
    intro ms
    induction ms with
    | nil => exact fun _ _ hk => hk
    | cons m ms ih =>
      intro ks hm hk
      refine ih _ (fun e => hm (List.mem_cons_of_mem _ e)) ?_
      dsimp only
      split
      · rw [offerAll, get_map]
        refine keeps_word_offer _ _ _ ?_ hk
        have : m ≠ n := fun e => hm (e ▸ List.mem_cons_self)
        simpa [Notice.isWordOf, hw] using this
      · exact hk
  induction ns generalizing ks with
  | nil => cases h
  | cons m ms ih =>
    rw [List.nodup_cons] at hn
    simp only [List.foldl_cons]
    rcases List.mem_cons.mp h with e | e
    · subst e
      rw [if_pos hc]
      intro ht
      refine later ms _ hn.1 ?_
      rw [offerAll, get_map]
      exact told_offer_any _ _ ht
    · have := ih hn.2 (if changed m then offerAll ks (.laneStatus (word m)) else ks) e
      refine told_of_fixed _ _ _ _ ?_ ?_ this
      · split <;> simp [offerAll]
      · split <;> simp [offerAll]

theorem showLanes_words (s : State) (n : LaneId) :
    (showLanes s).wordShown n ∧ ((showLanes s).lane n).word = statusWord s n ∧
      (statusWord s n ≠ (s.lane n).word → s.tells (showLanes s) (.laneStatus (statusWord s n))) := by
  have hl := showLanes_lane s n
  refine ⟨?_, by rw [hl], fun hc l => ?_⟩
  · rw [wordShown_iff]
    have e : statusWord (showLanes s) n = statusWord s n := by
      unfold statusWord State.disabled
      rw [hl]
      rfl
    rw [e, hl]
  · have h := told_words (statusWord s) (fun _ => rfl) (fun n => statusWord s n ≠ (s.lane n).word) allLanes (by decide)
      s.links n (by fin_cases n <;> decide) hc l
    have e : (showLanes s).links = allLanes.foldl
        (fun ks n => if statusWord s n ≠ (s.lane n).word then offerAll ks (.laneStatus (statusWord s n)) else ks)
        s.links := by
      unfold showLanes
      simp only [ite_not]
    show (s.links.get l).told ((showLanes s).links.get l) _
    rw [e]
    exact h

/-- R91, R126: the close of an event shows every lane's word, and tells one that has changed. -/
theorem finish_words (m : YardMode) (s : State) (n : LaneId) :
    (finish m s).wordShown n ∧
      (((finish m s).lane n).word ≠ (s.lane n).word →
        s.tells (finish m s) (.laneStatus ((finish m s).lane n).word)) := by
  generalize hu : judgeEmpty (judgeLow (autoClose s)) = u
  have hy : YardOnly s u := by
    subst hu
    exact ((yard_autoClose s).trans (yard_judgeLow _)).trans (yard_judgeEmpty _)
  have hw : (u.lane n).word = (s.lane n).word := by
    subst hu
    show (Vector.get (autoClose s).lanes n).word = _
    rw [(autoClose_lanes s).1]; rfl
  obtain ⟨h1, h2, h3⟩ := showLanes_words u n
  have e : finish m s = announceMode m (showLanes u) := by subst hu; rfl
  have hlane : (finish m s).lane n = (showLanes u).lane n := by
    rw [e]; unfold announceMode; split <;> rfl
  have hshown : (finish m s).wordShown n := by
    rw [e]; unfold announceMode; split <;> exact h1
  refine ⟨hshown, fun hc l => ?_⟩
  rw [hlane, h2] at hc ⊢
  rw [← hw] at hc
  have ht : (s.links.get l).told ((showLanes u).links.get l) (.laneStatus (statusWord u n)) :=
    told_of_fixed _ _ _ _ (hy.links.fixed l).2.1 (hy.links.fixed l).2.2.1 (h3 hc l)
  rw [e]
  unfold announceMode
  split
  · exact ht
  · intro hk
    show (LinkState.keeps ((offerAll (showLanes u).links _).get l) _)
    rw [offerAll, get_map]
    exact keeps_word_offer _ _ _ rfl (ht hk)

/-- R91: an event that touches no word before its close shows them. -/
theorem finish_showsWords (m : YardMode) (s u : State) (h : YardOnly s u) (hw : ∀ n, (u.lane n).word = (s.lane n).word) :
    s.showsWords (finish m u) := by
  intro _ n
  obtain ⟨h1, h2⟩ := finish_words m u n
  refine ⟨h1, fun hc l => ?_⟩
  rw [← hw n] at hc
  exact told_of_fixed _ _ _ _ (h.links.fixed l).2.1 (h.links.fixed l).2.2.1 (h2 hc l)

/-- An event of the yard shows the words. -/
theorem yardEvent_showsWords (now : State → Bool) (f : State → State) (s : State) (hf : YardOnly s (f s))
    (hw : ∀ n, ((f s).lane n).word = (s.lane n).word) : ∀ t, yardEvent now f s = .next t → s.showsWords t := by
  intro t ht
  have refl : s.showsWords s := fun h n => ⟨h n, fun hc => absurd rfl hc⟩
  unfold yardEvent whenUp at ht
  cases ht
  split
  · dsimp only
    split
    · exact finish_showsWords _ s _ hf hw
    · exact refl
  · exact refl

/-! ### What leaves the words -/

theorem applyLane_word (n : LaneId) (r : LaneStep) (s : State) (h : (s.lane n).sameSite r.lane) (m : LaneId) :
    ((applyLane n r s).lane m).word = (s.lane m).word := by
  by_cases e : m = n
  · subst e
    have : (applyLane m r s).lane m = r.lane := by
      rw [(applyLane_frame m r s).1]
      exact get_setAt_self _ _ _
    rw [this]
    exact h.2.2.2.2.2.2.2.2.2
  · rw [applyLane_lane_ne _ _ e]

theorem raiseIfOccupied_word (n : LaneId) (c : CauseKind) (s : State) (m : LaneId) :
    ((raiseIfOccupied n c s).lane m).word = (s.lane m).word := by
  unfold raiseIfOccupied
  split
  · exact applyLane_word n _ s (raise_spec _ c).1 m
  · rfl

theorem handOutcome_word (n : LaneId) (w : CapOwner) (o : CapOutcome) (s : State) (m : LaneId) :
    ((handOutcome n w o s).lane m).word = (s.lane m).word := by
  cases o with
  | failed why => rw [handOutcome_failed]; rfl
  | done r =>
    unfold handOutcome
    split
    · split
      · rfl
      · split
        · exact raiseIfOccupied_word n _ _ m
        · rfl
    · split
      · rfl
      · split
        · unfold exitOutcome
          dsimp only
          rw [fillAll_frame]
          refine (raiseIfOccupied_word n _ _ m).trans ?_
          show (Vector.get (writeRecord _ s).lanes m).word = _
          rw [(writeRecord_frame _ s).1]
          rfl
        · rfl
    · rfl

theorem endCapture_word (d : DeckId) (o : CapOutcome) (s : State) (m : LaneId) :
    ((endCapture d o s).lane m).word = (s.lane m).word := by
  unfold endCapture
  split
  · rfl
  · exact handOutcome_word _ _ _ _ m

theorem endVisitCapture_word (d : DeckId) (v : Nat) (s : State) (m : LaneId) :
    ((endVisitCapture d v s).lane m).word = (s.lane m).word := by
  unfold endVisitCapture
  split
  · rfl
  · split
    · exact endCapture_word _ _ _ m
    · rfl

theorem deckChange_word (d : DeckId) (new : DeckState) (c : WakeCause) (s : State) (m : LaneId) :
    ((deckChange d new c s).lane m).word = (s.lane m).word := by
  show (Vector.get (deckChange d new c s).lanes m).word = _
  rw [(deckChange_frame d new c s).2.2.2.2.1]
  rfl

theorem loopEvent_word (n : LaneId) (i : LoopId) (b f : Bool) (s : State) (m : LaneId) :
    ((loopEvent n i b f s).lane m).word = (s.lane m).word := by
  refine (applyLane_word n _ _ (laneLoopEvent_spec _ i b f).1 m).trans ?_
  have h1 : ∀ u : State, ((captureLoopEvent n i b u).lane m).word = (u.lane m).word := by
    intro u
    unfold captureLoopEvent
    split
    · rfl
    · split
      · exact endCapture_word _ _ _ m
      · rfl
  refine (h1 _).trans ?_
  unfold deckLoopEvent
  dsimp only
  split
  · split
    · exact deckChange_word _ _ _ _ m
    · rfl
  · split
    · exact deckChange_word _ _ _ _ m
    · rfl

theorem examineSample_word (d : DeckId) (z : Bool) (s : State) (m : LaneId) :
    ((examineSample d z s).lane m).word = (s.lane m).word := by
  unfold examineSample
  split
  · split
    · exact endCapture_word _ _ _ m
    · rfl
  · rfl

theorem sampleIfReady_word (d : DeckId) (s : State) (m : LaneId) :
    ((sampleIfReady d s).lane m).word = (s.lane m).word := by
  unfold sampleIfReady
  dsimp only
  split
  · exact examineSample_word d _ _ m
  · rfl

theorem startCapture_word (d : DeckId) (w : CapOwner) (s : State) (m : LaneId) :
    ((startCapture d w s).lane m).word = (s.lane m).word := by
  have h1 : ∀ u : State, ((wakeForRequest d u).lane m).word = (u.lane m).word := by
    intro u
    unfold wakeForRequest
    split <;> first | exact deckChange_word _ _ _ _ m | rfl
  exact (h1 _).trans (endCapture_word _ _ _ m)

end Sys2Proof.Machine
end

