-- ==== Sys2Proof/Tests/Slice0.lean ====
section
/-! SUPPORT. The model's own tests: ill-formed commands refused, the arithmetic of the spec's examples, the start-up that
ends in the reset state, and for each statement with hypotheses a concrete state and operands that meet them. -/

namespace Sys2Proof.Tests

open Sys2Proof Sys2Proof.Machine

set_option Elab.async false

/-! ### Helpers -/

/-- The next state of a command; the reset state where there is none. -/
def after (i : Instr) (s : State) : State :=
  match exec i s with
  | .next t => t
  | .fault _ => State.reset
  | .refused _ => State.reset

/-- A channel of a deck, with one reading. -/
def cell (d : DeckId) (raw : Int) : Channel := { Channel.reset with raw := some raw, cal := ⟨0, 65536, some d⟩ }

/-- A deck whose window is one sample and whose judgment takes two. -/
def deckIn (st : DeckState) : Deck :=
  { Deck.reset with
    setup := ⟨60000, 20, 0, 2, 1, 10, 20, 30⟩, state := st, excitation := st.excited, history := [0], count := 1 }

/-- An enabled lane, settled, with a vehicle at its DECK loop. -/
def laneAt (n : LaneId) (dir : Direction) (b : Barrier) : Lane :=
  { Lane.reset n with
    setup := { LaneSetup.default with enabled := true, direction := dir }, barrier := b, resolution := none
    settle := none, settled := true, deckLoop := ⟨true, false, true, false, none⟩ }

/-- A yard with C0 on D0, an entry lane L0, the clock at 1000 s, the counter at 7; OPEN, no visit, the links silent. -/
def yardIn (st : DeckState) : State :=
  { State.reset with
    channels := setAt State.reset.channels 0 (cell 0 0), decks := setAt State.reset.decks 0 (deckIn st)
    lanes := setAt State.reset.lanes 0 (laneAt 0 .entry .down), register := { Register.reset with mode := .opened }
    journal := { Journal.reset with counter := some 7 }, clock := ⟨1000, true, 0⟩
    links := #v[LinkState.quiet .gate 0x67, LinkState.quiet .office 0x7F, LinkState.quiet .kiosk 0x44] }

/-- Visit 3, plate AB12, a delivery weighed twice. -/
def visit3 (st : VisitState) : Visit :=
  { number := 3, plate := [0x41, 0x42, 0x31, 0x32], account := none, stream := 4, direction := .delivery
    tareMode := .weighed, storedTare := none, entryLane := 0, exitLane := none, first := some ⟨0, .visitIn, 30000, 900, false⟩
    second := none, state := st, failure := none, ticket := none, admitted := 900
    flags := ⟨false, false, false, false, false, false⟩, link := 0, capMark := false }

/-- The register with one visit, bound to L0 or to no lane. -/
def holding (v : Visit) (bound : Bool) : Register :=
  { visits := [v], counter := 4, bindings := #v[if bound then some v.number else none, none, none, none]
    mode := .opened }

/-- The same yard with a visit. -/
def yardWith (st : DeckState) (v : Visit) (bound : Bool) : State := { yardIn st with register := holding v bound }

/-- A capture of an owner, its timeout running since 995 s. -/
def captureOf (w : CapOwner) : CaptureUnit := ⟨some ⟨w, 990, .running 995 10000⟩, none⟩

/-- The lane L0 changed. -/
def withLane (s : State) (f : Lane → Lane) : State := s.setLane 0 (f (s.lane 0))

/-- The deck D0 changed. -/
def withDeck (s : State) (f : Deck → Deck) : State := s.setDeck 0 (f (s.deck 0))

/-- Payload of an ADMIT on L0: plate AB12, no account, stream 4. -/
def admitPayload (direction tareMode : Byte) : List Byte :=
  [0, 0x61, 0x62, 0x31, 0x32, 0, 0, 0, 0, 0, 0, 0, 0] ++ [0, 0, 0, 4, direction, tareMode]

/-- Payload of a DEPART of visit 3 on L0 without a registration. -/
def departPayload : List Byte := [0, 0, 3, 0, 0, 0, 0, 0, 0, 0, 0, 0, 0, 0, 0]

/-- Lane L0 as an exit. -/
def asExit (s : State) : State := withLane s (fun k => { k with setup := { k.setup with direction := .exit } })

/-! ### Well-formed commands -/

theorem test_payload_of_198_can_come : (Instr.readClock 0 1 (List.replicate 198 0)).wellFormed = true := by decide +kernel
theorem test_payload_of_199_cannot_come : (Instr.readClock 0 1 (List.replicate 199 0)).wellFormed = false := by
  decide +kernel
theorem test_unknown_kind_with_request_code_cannot_come : (Instr.unknownKind 0 0x2A 1 []).wellFormed = false := by decide
theorem test_unknown_kind_can_come : (Instr.unknownKind 0 0x09 1 []).wellFormed = true := by decide
theorem test_no_word_spells_a_command : decodeTableWord 16 0 = none := rfl

/-- A frame of DEPART, a frame whose CRC is wrong, one whose length is out of range, one not yet whole. -/
theorem test_frames_received :
    received 2 false (frameBytes 0x02 9 (List.replicate 15 0)) = some (.depart 2 9 (List.replicate 15 0)) ∧
      received 1 true (frameBytes 0x1B 9 [0]) = some (.zeroCal 1 9 [0] true) ∧
      received 1 true (frameBytes 0x09 9 []) = some (.unknownKind 1 0x09 9 []) ∧
      received 1 true ((frameBytes 0x2A 9 []).take 4 ++ [0, 0]) = some (.badFrame 1 .crcMismatch) ∧
      received 1 true [0xC3, 0x01] = some (.badFrame 1 .lengthBelow2) ∧
      received 1 true [0xC3, 0xC9] = some (.badFrame 1 .lengthAbove200) ∧
      received 1 true ((frameBytes 0x2A 9 []).take 5) = none := by decide +kernel

/-! ### Arithmetic and encodings -/

theorem test_crc_check_value : crc16 [0x31, 0x32, 0x33, 0x34, 0x35, 0x36, 0x37, 0x38, 0x39] = 0x29B1 := by decide +kernel
theorem test_halves_go_away_from_zero : roundDiv 5 2 = 3 ∧ roundDiv (-5) 2 = -3 ∧ roundDiv 4 3 = 1 ∧ roundDiv 0 7 = 0 := by
  decide +kernel
theorem test_signed_bytes : signed4 (-1) = [0xFF, 0xFF, 0xFF, 0xFF] ∧ be3 999999 = [0x0F, 0x42, 0x3F] := by decide +kernel
theorem test_record_lengths :
    ((visit3 .released).voidTicket 5).bytes.length = 61 ∧ (visit3 .released).bytes.length = 59 ∧
      (StatusWord.reset 0).bytes.length = 14 := by decide +kernel

/-! ### Start-up -/

/-- A part never powered: every array blank, the supply absent. -/
def cold : State :=
  { State.reset with
    lanes := State.reset.lanes.map (fun k => k.cleared), links := State.reset.links.map LinkState.cleared
    period := none, power := ⟨false, false, false, .starting, false, false, .powerOn, .notChecked, false⟩ }

def coldStraps : Straps := #v[⟨0, 0⟩, ⟨0, 1⟩, ⟨0, 2⟩]

/-- The part as start-up leaves it. -/
def started : State := after .storeScanDone (after (.powerOn coldStraps) cold)

theorem test_start_up_ends_in_reset :
    started.decks = State.reset.decks ∧ started.lanes = State.reset.lanes ∧ started.register = State.reset.register ∧
      started.journal = State.reset.journal ∧ started.period = some 10000 ∧ started.clock = ⟨0, false, 0⟩ ∧
      started.power = Power.reset ∧ started.store.engine = none ∧ started.store.yardBad = false := by decide +kernel

theorem test_start_up_sends_the_words :
    (started.link 0).tx = some (.notice (.laneStatus (StatusWord.reset 0))) ∧ (started.link 0).queue.length = 3 ∧
      (started.link 0).mask = 0x67 ∧ (started.link 2).tx = none ∧ (started.link 2).role = .kiosk := by decide +kernel

theorem test_reset_idles : State.reset.pending = [] ∧ State.reset.up = true := by decide +kernel

/-! ### Hypotheses met: the cells and the decks -/

theorem open_closingHolds (s : State) (h : s.register.mode ≠ .closing) : s.closingHolds := fun h' => absurd h' h

/-- D0 with a second member C1 that has given no reading in this sample. -/
def twoCells (st : DeckState) : State := (yardIn st).setChan 1 (cell 0 0)

theorem test_reading_hyps :
    (yardIn .active).up = true ∧
      ((twoCells .active).register.mode ≠ .closing ∧ ((twoCells .active).chan 0).lost = false ∧
        ((twoCells .active).chan 0).cal.deck = some 0 ∧ ((twoCells .active).chan 1).cal.deck = some 0 ∧
        ((twoCells .active).chan 1).arrival = false ∧
        (twoCells .active).supervised ((twoCells .active).chan 0) = true) ∧
      (State.reset.up = true ∧ State.reset.supervised (State.reset.chan 0) = false ∧
        (State.reset.chan 0).cal.deck = none) := by decide +kernel

theorem test_saturated_readings :
    ((after (.cellReading 0 0x7FFFFF true) (yardIn .active)).chan 0).saturation = .positive ∧
      ((after (.cellReading 0 0x800000 true) (yardIn .active)).chan 0).saturation = .negative ∧
      ((after (.cellReading 0 0x7FFFFE true) (yardIn .active)).chan 0).saturation = .none ∧
      ((after (.cellReading 0 0x800000 true) (yardIn .active)).chan 0).raw = some (-8388608) := by decide +kernel

/-- The premises of the statements about a sample: one member, the deck in a state that forms samples. -/
theorem test_sample_hyps :
    (yardIn .active).up = true ∧ (yardIn .active).register.mode ≠ .closing ∧
      ((yardIn .active).chan 0).memberOf 0 = true ∧ ((yardIn .active).deck 0).state.sampling = true ∧
      ∀ c, c ≠ 0 → ((yardIn .active).chan c).memberOf 0 = true → ((yardIn .active).chan c).arrival = true := by
  decide +kernel

theorem test_sample_judges :
    ((after (.cellReading 0 50000 true) (yardIn .active)).deck 0).current = some ⟨50000, 50000, 60, false, false⟩ ∧
      ((after (.cellReading 0 80000 true) (yardIn .active)).deck 0).stable = false ∧
      ((after (.cellReading 0 20000 true) (yardIn .active)).deck 0).stable = true := by decide +kernel

/-- D0 with nothing on it and a history near a reading, so that the next sample is judged STABLE. -/
def emptyDeck (near zd : Int) (armed : Bool) : State :=
  withLane (withDeck (yardIn .active) (fun k => { k with history := [near - zd], zd := zd, powerUpZero := armed }))
    (fun k => { k with deckLoop := ⟨false, false, false, false, none⟩ })

/-- The clauses about the zero: not EMPTY; armed, within and beyond the band; tracked, clamped at both limits, and out of
the tracking band. -/
theorem test_zero_hyps :
    (yardIn .active).isEmpty 0 = false ∧ (emptyDeck 1200000 0 true).isEmpty 0 = true ∧
      (emptyDeck 1200000 0 true).register.mode ≠ .closing ∧
      ((after (.cellReading 0 1200000 true) (emptyDeck 1200000 0 true)).deck 0).stable = true := by decide +kernel

theorem test_power_up_zero_acts :
    ((after (.cellReading 0 1200000 true) (emptyDeck 1200000 0 true)).deck 0).zd = 1200000 ∧
      ((after (.cellReading 0 1200001 true) (emptyDeck 1200000 0 true)).deck 0).zeroLimit = true ∧
      ((after (.cellReading 0 1200001 true) (emptyDeck 1200000 0 true)).deck 0).zd = 0 := by decide +kernel

theorem test_tracking_acts :
    ((after (.cellReading 0 10000 true) (emptyDeck 10000 0 false)).deck 0).zd = 10000 ∧
      ((after (.cellReading 0 10001 true) (emptyDeck 10000 0 false)).deck 0).zd = 0 ∧
      ((after (.cellReading 0 1200001 true) (emptyDeck 1200000 1195000 false)).deck 0).zd = 1200000 ∧
      ((after (.cellReading 0 (BitVec.ofInt 24 (-1200001)) true) (emptyDeck (-1200000) (-1195000) false)).deck 0).zd =
        -1200000 := by decide +kernel

theorem test_rounding_hyps : 0 < 2 ∧ 2 * ((5 : Int) - roundDiv 5 2 * 2).natAbs = 2 := by decide +kernel

/-- A member that has missed two periods and has not answered in this one. -/
def missing : State := (yardIn .active).setChan 0 { cell 0 0 with missed := 2 }

theorem test_period_hyps :
    missing.up = true ∧ missing.period.isSome = true ∧ missing.register.mode ≠ .closing ∧
      missing.supervised (missing.chan 0) = true ∧ (missing.chan 0).answered = false ∧
      missing.supervised (missing.chan 1) = false ∧ (missing.chan 0).memberOf 0 = true ∧
      (missing.deck 0).state.sampling = true ∧ (missing.chan 0).lost = false ∧ 3 ≤ (missing.chan 0).missed + 1 := by
  decide +kernel

theorem test_loss_faults : ((after .periodTimerExpiry missing).deck 0).state = .fault := by decide +kernel

/-- D0 in FAULT with its only member LOST. -/
def faulted : State := (yardIn .fault).setChan 0 { cell 0 0 with lost := true, missed := 3 }

theorem test_return_hyps :
    faulted.up = true ∧ faulted.register.mode ≠ .closing ∧ (faulted.chan 0).memberOf 0 = true ∧
      (faulted.deck 0).state = .fault ∧ (faulted.chan 0).lost = true ∧
      (∀ c, c ≠ 0 → (faulted.chan c).memberOf 0 = true → (faulted.chan c).lost = false) ∧
      ((after (.cellReading 0 5 true) faulted).deck 0).state = .active := by decide +kernel

/-! ### Hypotheses met: captures -/

/-- D0 near a weight of 40 t, waiting for a capture. -/
def weighing (w : CapOwner) (v : Visit) : State :=
  (withDeck (yardWith .active v true) (fun k => { k with history := [40000000 / 8] })).setUnit 0 (captureOf w)

/-- 5 t on the deck. -/
def load : BitVec 24 := 5000000

theorem test_capture_hyps (w : CapOwner) (hw : w = .spot 1 ∨ w = .visitIn 3) :
    (weighing w (visit3 .weighIn)).up = true ∧ (weighing w (visit3 .weighIn)).register.mode ≠ .closing ∧
      ((weighing w (visit3 .weighIn)).chan 0).memberOf 0 = true ∧
      ((weighing w (visit3 .weighIn)).deck 0).state = .active ∧
      ((weighing w (visit3 .weighIn)).unit 0).cap = some ⟨w, 990, .running 995 10000⟩ ∧
      (((weighing w (visit3 .weighIn)).deck 0).sample
        (((weighing w (visit3 .weighIn)).setChan 0 (((weighing w (visit3 .weighIn)).chan 0).accept true 5000000)).members
          0)).current = some ⟨5000000, 5000000, 5000, false, false⟩ ∧
      ∀ c, c ≠ 0 → ((weighing w (visit3 .weighIn)).chan c).memberOf 0 = true →
        ((weighing w (visit3 .weighIn)).chan c).arrival = true := by
  rcases hw with rfl | rfl <;> decide +kernel

theorem test_capture_decides :
    ((after (.cellReading 0 load true) (weighing (.spot 1) (visit3 .onSite))).unit 0).lastSpot =
        some ⟨1, 990, .done ⟨0, .spot, 5000, 1000, false⟩⟩ ∧
      ((after (.cellReading 0 0 true) (weighing (.spot 1) (visit3 .onSite))).unit 0).cap.isSome = true := by
  decide +kernel

theorem test_entry_hyps :
    (weighing (.visitIn 3) (visit3 .weighIn)).register.find 3 = some (visit3 .weighIn) ∧
      (weighing (.visitIn 3) (visit3 .weighIn)).bound 0 = some 3 ∧
      (((weighing (.visitIn 3) (visit3 .weighIn)).deck 0).sample
        (((weighing (.visitIn 3) (visit3 .weighIn)).setChan 0
          (((weighing (.visitIn 3) (visit3 .weighIn)).chan 0).accept true 5000000)).members 0)).stable = true ∧
      (after (.cellReading 0 load true) (weighing (.visitIn 3) (visit3 .weighIn))).register.find 3 =
        some { visit3 .entering with first := some ⟨0, .visitIn, 5000, 1000, false⟩ } := by decide +kernel

theorem test_exit_hyps :
    (weighing (.visitOut 3) (visit3 .weighOut)).register.find 3 = some (visit3 .weighOut) ∧
      (weighing (.visitOut 3) (visit3 .weighOut)).bound 0 = some 3 ∧ (visit3 .weighOut).tareMode = .weighed ∧
      (visit3 .weighOut).first = some ⟨0, .visitIn, 30000, 900, false⟩ ∧
      (weighing (.visitOut 3) (visit3 .weighOut)).journal.counter = some 7 ∧
      ((after (.cellReading 0 load true) (weighing (.visitOut 3) (visit3 .weighOut))).journal.records.map
        (fun t => (t.number, t.net))) = [(7, some 25000)] := by decide +kernel

/-- Visit 3 as a collection on a stored tare of 3 t, and as one weighed twice, waiting for its exit weighing at L0. -/
def storedOut : Visit :=
  { visit3 .weighOut with tareMode := .stored, direction := .collection, storedTare := some 3000, first := none
                          exitLane := some 0 }

def leaving : Visit := { visit3 .weighOut with exitLane := some 0 }

theorem test_stored_exit_hyps :
    (weighing (.visitOut 3) storedOut).register.find 3 = some storedOut ∧
      (after (.cellReading 0 load true) (weighing (.visitOut 3) storedOut)).journal.records.map
        (fun t => (t.number, t.kind, t.first.isSome, t.net)) = [(7, .storedTare, false, some 2000)] := by decide +kernel

/-- What a failed VISIT capture does to its visit, at the stable timeout and at VEHICLE_LEFT. -/
theorem test_failed_exit_hyps :
    let s := weighing (.visitOut 3) leaving
    let back := fun why : CapFail => some { visit3 .onSite with failure := some why }
    s.register.find 3 = some leaving ∧ s.bound 0 = some 3 ∧
      (after (.stableTimeoutExpiry 0) s).register.find 3 = back .unstable ∧
      (after (.stableTimeoutExpiry 0) s).bound 0 = none ∧
      (after (.stableTimeoutExpiry 0) (weighing (.visitIn 3) (visit3 .weighIn))).bound 0 = some 3 := by decide +kernel

/-! ### Hypotheses met: deck timers and requests -/

theorem test_warm_up_hyps :
    let s := (withDeck (yardIn .warming) (fun k => { k with warmUp := some 20000 })).setUnit 0
      ⟨some ⟨.spot 1, 990, .notStarted⟩, none⟩
    s.up = true ∧ s.register.mode ≠ .closing ∧ (s.deck 0).warmUp.isSome = true ∧ (s.deck 0).state = .warming ∧
      (s.unit 0).cap = some ⟨.spot 1, 990, .notStarted⟩ ∧
      ((after (.warmUpTimerExpiry 0) s).deck 0).powerUpZero = true := by decide +kernel

theorem test_idle_hyps :
    let s := withDeck (yardIn .active) (fun k => { k with idle := some 1800000 })
    s.up = true ∧ (s.deck 0).idle.isSome = true ∧ (s.deck 0).state = .active ∧
      ((after (.idleTimerExpiry 0) s).deck 0).excitation = false := by decide +kernel

theorem test_stable_timeout_hyps :
    (weighing (.spot 1) (visit3 .weighIn)).up = true ∧
      ((weighing (.visitIn 3) (visit3 .weighIn)).unit 0).cap = some ⟨.visitIn 3, 990, .running 995 10000⟩ ∧
      ((after (.stableTimeoutExpiry 0) (weighing (.visitIn 3) (visit3 .weighIn))).register.find 3).bind (·.failure) =
        some .unstable := by decide +kernel

theorem test_ready (st : DeckState) : (yardIn st).ready 1 ∧ (yardIn st).ready 0 ∧ (yardIn st).ready 2 := by
  refine ⟨⟨?_, ?_, ?_⟩, ⟨?_, ?_, ?_⟩, ⟨?_, ?_, ?_⟩⟩ <;> cases st <;> decide +kernel

theorem test_wake_hyps :
    gateOffice ((yardIn .sleep).link 1).role = true ∧ (yardIn .sleep).register.mode ≠ .closing ∧
      ((yardIn .sleep).deck 0).state = .sleep ∧ ((yardIn .warming).deck 0).state = .warming ∧
      ((yardIn .active).deck 0).state = .active ∧ ((yardIn .active).deck 0).empty = (yardIn .active).isEmpty 0 ∧
      ((yardIn .service).deck 0).state = .service ∧ ((yardIn .fault).deck 0).state = .fault ∧
      ((after (.wake 1 9 (be1 0)) (yardIn .sleep)).deck 0).warmUp = some 20000 := by decide +kernel

/-- D0 empty and steady near 300 g. -/
def steady (st : DeckState) : State :=
  withLane (withDeck (yardIn st) (fun k => { k with stable := true, current := some ⟨300, 300, 0, false, false⟩ }))
    (fun k => { k with deckLoop := ⟨false, false, false, false, none⟩ })

theorem test_zero_request_hyps :
    gateOffice ((steady .active).link 1).role = true ∧ ((steady .active).deck 0).zeroCal = [] ∧
      ((steady .active).unit 0).cap = none ∧ ((steady .active).lane 0).deckLoop.occupied = false ∧
      ((steady .active).deck 0).current = some ⟨300, 300, 0, false, false⟩ ∧
      ((after (.zeroDeck 1 9 (be1 0)) (steady .active)).deck 0).zd = 300 := by decide +kernel

/-- D0 in SERVICE with its mark, its member's history full. -/
def inService : State :=
  (withDeck (steady .service) (fun k => { k with service := true })).setChan 0 { cell 0 300 with history := [300] }

theorem test_zero_cal_hyps :
    (inService.link 1).role = .office ∧ (inService.deck 0).service = true ∧ (inService.deck 0).state = .service ∧
      inService.store.engine = none ∧ (inService.deck 0).stable = true ∧
      (inService.deck 0).current.isSome = true ∧ inService.memberIds 0 = [0] ∧
      (∀ c, (inService.chan c).memberOf 0 = true → 2 ^ (inService.deck 0).setup.k ≤ (inService.chan c).history.length) ∧
      (after (.zeroCal 1 9 (be1 0) true) inService).store.engine = some ⟨.cal 0 ⟨300, 65536, some 0⟩, some 0, 8⟩ := by
  decide +kernel

theorem test_service_hyps :
    ((yardIn .active).link 1).role = .office ∧ ((yardIn .active).deck 0).service = false ∧
      (inService.deck 0).zeroCal = [] ∧ inService.register.mode ≠ .closing ∧
      ((after (.serviceEnter 1 9 (be1 0)) (yardIn .active)).deck 0).state = .service ∧
      ((after (.serviceLeave 1 9 (be1 0)) inService).deck 0).state = .active := by decide +kernel

theorem test_spot_hyps :
    ((yardIn .sleep).deck 0).state.capturable = true ∧ ((yardIn .sleep).unit 0).cap = none ∧
      ((after (.spotWeigh 1 9 (be1 0)) (yardIn .sleep)).deck 0).wakeCause = .request := by decide +kernel

/-! ### Hypotheses met: loops and the barrier -/

/-- A debounce of a loop of L0 that is about to end. -/
def debouncing (s : State) (i : LoopId) (target : Bool) : State :=
  withLane s (fun k => k.setLoop i ⟨target, false, !target, false, some ⟨target, 300⟩⟩)

theorem test_loop_hyps :
    let s := debouncing (yardIn .sleep) .deck true
    let w := withDeck (debouncing (yardIn .warming) .deck false) (fun k => { k with wakeCause := .edge .deck false })
    s.up = true ∧ ((s.lane 0).loop .deck).faultIn = false ∧
      ((s.lane 0).loop .deck).debounce = some ⟨true, 300⟩ ∧ s.register.mode ≠ .closing ∧
      (s.deck 0).wakeMask.enables .deck true = true ∧ (w.deck 0).wakeCause = .edge .deck false ∧
      ((after (.loopDebounceExpiry 0 .deck) s).deck 0).state = .warming ∧
      ((after (.loopDebounceExpiry 0 .deck) w).deck 0).state = .sleep := by decide +kernel

theorem test_vehicle_left_hyps :
    let s := debouncing (weighing (.visitIn 3) (visit3 .weighIn)) .deck false
    (s.unit 0).cap = some ⟨.visitIn 3, 990, .running 995 10000⟩ ∧ (s.deck 0).state = .active ∧
      (after (.loopDebounceExpiry 0 .deck) s).register.visits = [] := by decide +kernel

theorem test_vehicle_left_at_exit :
    let t := after (.loopDebounceExpiry 0 .deck) (debouncing (weighing (.visitOut 3) leaving) .deck false)
    t.register.find 3 = some { visit3 .onSite with failure := some .vehicleLeft } ∧ t.bound 0 = none := by decide +kernel

/-- L0 raised for visit 3, the mark clear or set. -/
def raised (mark : Bool) : State :=
  withLane (yardWith .active (visit3 .entering) true)
    (fun k => { k with barrier := .up, mark := mark, cause := some ⟨.admitted 3, .pending⟩ })

/-- The back-off, and the DECK cleared event of a vehicle that passes on. -/
theorem test_back_off_hyps :
    let s := debouncing (raised false) .deck false
    (s.lane 0).mark = false ∧ (s.lane 0).pendingCause Cause.isVisit = true ∧ (s.lane 0).settled = true ∧
      ((after (.loopDebounceExpiry 0 .deck) s).lane 0).cause = some ⟨.admitted 3, .withdrawn⟩ ∧
      ((after (.loopDebounceExpiry 0 .deck) s).lane 0).barrier = .lowering ∧
      ((after (.loopDebounceExpiry 0 .deck) (debouncing (raised true) .deck false)).lane 0).cause =
        some ⟨.admitted 3, .pending⟩ := by decide +kernel

theorem test_loop_level_runs :
    (((after (.loopLevelChange 0 .clear true) (yardIn .active)).lane 0).clearLoop).debounce = some ⟨true, 300⟩ ∧
      (((after (.loopLevelChange 0 .clear false) (debouncing (yardIn .active) .clear true)).lane 0).clearLoop).debounce =
        none := by decide +kernel

/-- L0 with its arm in a state. -/
def armIn (s : State) (b : Barrier) : State := withLane s (fun k => { k with barrier := b })

theorem test_reversal_hyps :
    let s := debouncing (armIn (yardIn .active) .lowering) .clear true
    let t := after (.loopDebounceExpiry 0 .clear) s
    s.up = true ∧ (s.lane 0).clearLoop.debounce = some ⟨true, 300⟩ ∧ (s.lane 0).barrier = .lowering ∧
      (s.lane 0).bothLimits = false ∧ (s.lane 0).up.active = false ∧
      (t.lane 0).barrier = .raising ∧ (t.lane 0).cause = some ⟨.safety, .pending⟩ ∧ (t.lane 0).mark = true := by
  decide +kernel

/-- A passage about to end, for the visit of a cause. -/
def passing (c : CauseKind) (v : Visit) : State :=
  debouncing (withLane (yardWith .active v true)
    (fun k => { k with barrier := .up, mark := true, cause := some ⟨c, .pending⟩ })) .clear false

theorem test_passage_hyps :
    (passing (.admitted 3) (visit3 .entering)).up = true ∧
      ((passing (.admitted 3) (visit3 .entering)).lane 0).mark = true ∧
      ((passing (.admitted 3) (visit3 .entering)).lane 0).barrier = .up ∧
      (passing (.admitted 3) (visit3 .entering)).register.find 3 = some (visit3 .entering) ∧
      (passing (.admitted 3) (visit3 .entering)).bound 0 = some 3 ∧
      (passing (.released 3) (visit3 .released)).register.find 3 = some (visit3 .released) ∧
      (after (.loopDebounceExpiry 0 .clear) (passing (.admitted 3) (visit3 .entering))).register.find 3 =
        some (visit3 .onSite) ∧
      (after (.loopDebounceExpiry 0 .clear) (passing (.released 3) (visit3 .released))).register.visits = [] := by
  decide +kernel

/-- A CLEAR cleared event without the mark: no passage, a PENDING SAFETY cause withdrawn. -/
theorem test_no_passage_hyps :
    let s := debouncing (withLane (yardIn .active)
      (fun k => { k with barrier := .up, cause := some ⟨.safety, .pending⟩ })) .clear false
    (s.lane 0).mark = false ∧ (s.lane 0).clearLoop.debounce = some ⟨false, 300⟩ ∧
      ((after (.loopDebounceExpiry 0 .clear) s).lane 0).cause = some ⟨.safety, .withdrawn⟩ ∧
      ((after (.loopDebounceExpiry 0 .clear) s).lane 0).barrier = .up := by decide +kernel

theorem test_detector_hyps :
    let s := withLane (yardIn .active) (fun k => { k with clearLoop := ⟨false, true, true, true, none⟩ })
    (((yardIn .active).lane 0).loop .clear).faultIn = false ∧ ((s.lane 0).loop .clear).faultIn = true ∧
      (((after (.detectorFaultAsserted 0 .clear) (yardIn .active)).lane 0).clearLoop) = ⟨false, true, true, true, none⟩ ∧
      (((after (.detectorFaultCleared 0 .clear) s).lane 0).clearLoop).debounce = some ⟨false, 300⟩ := by decide +kernel

/-- A limit of L0 about to read active. -/
def limitDue (s : State) (i : LimitId) (other : Bool) : State :=
  withLane s (fun k => match i with
    | .up => { k with up := ⟨true, false, some ⟨true, 50⟩⟩, down := ⟨other, other, none⟩ }
    | .down => { k with down := ⟨true, false, some ⟨true, 50⟩⟩, up := ⟨other, other, none⟩ })

theorem test_limit_hyps :
    (((limitDue (armIn (yardIn .active) .raising) .up false).lane 0).limit .up).debounce = some ⟨true, 50⟩ ∧
      ((limitDue (armIn (yardIn .active) .raising) .up false).lane 0).settled = true ∧
      ((after (.limitDebounceExpiry 0 .up) (limitDue (armIn (yardIn .active) .raising) .up false)).lane 0).barrier =
        .lowering ∧
      ((after (.limitDebounceExpiry 0 .down) (limitDue (armIn (yardIn .active) .lowering) .down false)).lane 0).barrier =
        .down ∧
      ((after (.limitDebounceExpiry 0 .up) (limitDue (armIn (yardIn .active) .down) .up true)).lane 0).jam =
        .bothLimits ∧
      ((after (.limitDebounceExpiry 0 .up) (limitDue (armIn (yardIn .active) .jammed) .up true)).lane 0).barrier =
        .jammed ∧
      (((after (.limitInputChange 0 .up true) (yardIn .active)).lane 0).up).debounce = some ⟨true, 50⟩ := by
  decide +kernel

theorem test_barrier_timer_hyps :
    let s := withLane (armIn (yardIn .active) .raising) (fun k => { k with travel := some 6000 })
    let u := withLane (armIn (yardIn .active) .up) (fun k => { k with settle := some 1000, settled := false })
    s.up = true ∧ (s.lane 0).travel.isSome = true ∧ (s.lane 0).barrier = .raising ∧ (u.lane 0).settle.isSome = true ∧
      (u.lane 0).pendingCause (fun _ => true) = false ∧ (u.lane 0).bothLimits = false ∧
      ((after (.travelTimerExpiry 0) s).lane 0).jam = .travelRaising ∧
      ((after (.settleTimerExpiry 0) u).lane 0).barrier = .lowering := by decide +kernel

/-- L0 before its resolution, by its limits and its CLEAR loop. -/
def resolving (up down clear : Bool) : State :=
  withLane (armIn (yardIn .active) .unresolved) (fun k =>
    { k with resolution := some 300, up := ⟨up, up, none⟩, down := ⟨down, down, none⟩
             clearLoop := ⟨clear, false, clear, false, none⟩, settled := !clear })

theorem test_resolution_hyps (up down clear : Bool) :
    (resolving up down clear).up = true ∧ ((resolving up down clear).lane 0).resolution.isSome = true ∧
      ((resolving up down clear).lane 0).barrier = .unresolved ∧
      ((resolving up down clear).lane 0).clearLoop.fault = false := by
  cases up <;> cases down <;> cases clear <;> decide +kernel

theorem test_resolution_finds :
    ((after (.resolutionTimerExpiry 0) (resolving true true false)).lane 0).barrier = .jammed ∧
      ((after (.resolutionTimerExpiry 0) (resolving false true true)).lane 0).barrier = .down ∧
      ((after (.resolutionTimerExpiry 0) (resolving true false true)).lane 0).barrier = .up ∧
      ((after (.resolutionTimerExpiry 0) (resolving true false false)).lane 0).barrier = .lowering ∧
      ((after (.resolutionTimerExpiry 0) (resolving false false false)).lane 0).barrier = .lowering ∧
      ((after (.resolutionTimerExpiry 0) (resolving false false true)).lane 0).barrier = .raising := by decide +kernel

theorem test_barrier_request_hyps :
    let s := armIn (yardIn .active) .up
    let j := armIn (yardIn .active) .jammed
    (yardIn .active).disabled 0 = false ∧ (s.lane 0).pendingCause Cause.isVisit = false ∧
      ((yardIn .active).lane 0).barrier = .down ∧ (j.lane 0).clearLoop.occupied = false ∧
      ((after (.manualRaise 1 9 (be1 0)) (yardIn .active)).lane 0).barrier = .raising ∧
      ((after (.lowerReset 1 9 (be1 0)) j).lane 0).barrier = .lowering ∧
      (after (.lowerReset 1 9 (be1 0)) (yardIn .active)).link 1 =
        { LinkState.quiet .office 0x7F with
          request := some ⟨9, 0x11, true⟩, tx := some (.reply ⟨9, 0x11, .wrongState, []⟩) } := by decide +kernel

theorem test_reraise_hyps :
    let s := yardWith .active (visit3 .entering) true
    s.disabled 0 = false ∧ s.register.mode ≠ .closed ∧ s.bound 0 = some 3 ∧
      s.register.find 3 = some (visit3 .entering) ∧ (s.lane 0).setup.direction = .entry ∧
      (s.deck 0).service = false ∧ (s.lane 0).barrier = .down ∧ (s.lane 0).deckLoop.occupied = true ∧
      ((after (.reraise 2 9 (be1 0)) s).lane 0).cause = some ⟨.admitted 3, .pending⟩ := by decide +kernel

/-! ### Hypotheses met: visits -/

theorem test_admit_hyps :
    let s := yardIn .active
    admitFields? (admitPayload 1 1) = some ⟨0, [0x41, 0x42, 0x31, 0x32], none, 4, .delivery, .weighed⟩ ∧
      s.disabled 0 = false ∧ (s.lane 0).setup.direction = .entry ∧ s.register.mode = .opened ∧ s.bound 0 = none ∧
      (s.lane 0).deckLoop.occupied = true ∧ s.register.visits = [] ∧
      s.journal.held + s.register.unreleased + 1 ≤ 512 ∧ (s.deck 0).service = false ∧
      (s.deck 0).state.capturable = true ∧ (s.unit 0).cap = none ∧
      ((after (.admitVehicle 1 9 (admitPayload 1 1)) s).unit 0).cap =
        some ⟨.visitIn 1, 1000, .running 1000 10000⟩ := by decide +kernel

/-- The yard with a stored tare of 12 t for AB12, good until day 0. -/
def withTare : State :=
  { yardIn .active with store := { Store.reset with
      tare := setAt Store.reset.tare 5 ⟨.content ⟨[0x41, 0x42, 0x31, 0x32], 12000, some 77, 0⟩, .valid⟩ } }

theorem test_admit_stored_hyps :
    withTare.store.lookup [0x41, 0x42, 0x31, 0x32] = some (5, ⟨[0x41, 0x42, 0x31, 0x32], 12000, some 77, 0⟩) ∧
      admitFields? (admitPayload 2 2) = some ⟨0, [0x41, 0x42, 0x31, 0x32], none, 4, .collection, .stored⟩ ∧
      ((after (.admitVehicle 1 9 (admitPayload 2 2)) withTare).register.find 1).bind (·.account) = some 77 ∧
      ((after (.admitVehicle 1 9 (admitPayload 2 2)) withTare).lane 0).cause = some ⟨.admitted 1, .pending⟩ := by
  decide +kernel

/-- A DELIVERY on the stored tare is weighed in with the entry's tare and account; a waiting SPOT ends PREEMPTED. -/
theorem test_admit_stored_delivery :
    let s := withTare.setUnit 0 (captureOf (.spot 1))
    let t := after (.admitVehicle 1 9 (admitPayload 1 2)) s
    admitFields? (admitPayload 1 2) = some ⟨0, [0x41, 0x42, 0x31, 0x32], none, 4, .delivery, .stored⟩ ∧
      (s.unit 0).cap = some ⟨.spot 1, 990, .running 995 10000⟩ ∧
      (t.register.find 1).map (fun v => (v.tareMode, v.storedTare, v.account, v.state)) =
        some (.stored, some 12000, some 77, .weighIn) ∧
      (t.unit 0).lastSpot = some ⟨1, 990, .failed .preempted⟩ ∧
      (t.unit 0).cap = some ⟨.visitIn 1, 1000, .running 1000 10000⟩ := by decide +kernel

theorem test_depart_hyps :
    let s := asExit (yardWith .active (visit3 .onSite) false)
    departFields? departPayload = some ⟨0, 3, none⟩ ∧ s.disabled 0 = false ∧ (s.lane 0).setup.direction = .exit ∧
      s.bound 0 = none ∧ (s.lane 0).deckLoop.occupied = true ∧ s.register.find 3 = some (visit3 .onSite) ∧
      (s.deck 0).state.capturable = true ∧ (s.unit 0).cap = none ∧ (visit3 .onSite).tareMode ≠ .stored ∧
      ((after (.depart 2 9 departPayload) s).unit 0).cap = some ⟨.visitOut 3, 1000, .running 1000 10000⟩ := by
  decide +kernel

/-- Visit 3 as a delivery on a stored tare of 12 t. -/
def storedVisit : Visit := { visit3 .onSite with tareMode := .stored, storedTare := some 12000 }

theorem test_depart_stored_hyps :
    let s := asExit (yardWith .active storedVisit false)
    s.register.find 3 = some storedVisit ∧ storedVisit.first = some ⟨0, .visitIn, 30000, 900, false⟩ ∧
      s.journal.counter = some 7 ∧
      (after (.depart 2 9 departPayload) s).journal.records.map (fun t => (t.number, t.kind, t.net)) =
        [(7, .storedTare, some 18000)] := by decide +kernel

theorem test_lane_request_hyps :
    let s := yardWith .active (visit3 .weighIn) true
    let c := yardWith .active (visit3 .released) true
    s.disabled 0 = false ∧ s.bound 0 = some 3 ∧ s.register.find 3 = some (visit3 .weighIn) ∧
      s.register.mode ≠ .closed ∧ (s.unit 0).cap = none ∧ c.register.find 3 = some (visit3 .released) ∧
      ((after (.recapture 1 9 (be1 0)) s).unit 0).cap = some ⟨.visitIn 3, 1000, .running 1000 10000⟩ ∧
      (after (.cancel 1 9 (be1 0)) s).register.visits = [] ∧
      (after (.clearLane 1 9 (be1 0)) c).register.visits = [] := by decide +kernel

theorem test_void_hyps (st : VisitState) :
    (yardWith .active (visit3 st) true).register.find 3 = some (visit3 st) ∧
      (yardWith .active (visit3 st) true).journal.counter = some 7 ∧
      (yardWith .active (visit3 st) true).register.find 4 = none := by cases st <;> decide +kernel

theorem test_void_writes :
    (after (.voidVisit 1 9 (be2 3)) (yardWith .active (visit3 .onSite) false)).journal.records.map
        (fun t => (t.number, t.kind, t.net)) = [(7, .void, none)] ∧
      ((after (.reclassify 1 9 (be2 3 ++ be1 31)) (yardWith .active (visit3 .onSite) false)).register.find 3).map
        (·.stream) = some 31 := by decide +kernel

/-- A VOID withdraws the visit's cause, and ends its waiting capture. -/
theorem test_void_ends_hyps :
    let e := after (.voidVisit 1 9 (be2 3)) (raised false)
    let w := after (.voidVisit 1 9 (be2 3)) (weighing (.visitOut 3) leaving)
    (e.lane 0).cause = some ⟨.admitted 3, .withdrawn⟩ ∧ e.register.visits = [] ∧
      ((weighing (.visitOut 3) leaving).unit 0).cap.isSome = true ∧ (w.unit 0).cap = none ∧
      w.journal.records.map (·.kind) = [.void] ∧
      ((after (.voidVisit 1 9 (be2 3)) (weighing (.visitIn 3) (visit3 .weighIn))).unit 0).cap = none := by decide +kernel

theorem test_yard_mode_hyps :
    let o := yardWith .active (visit3 .onSite) false
    (o.link 1).role = .office ∧ o.register.mode = .opened ∧ (yardIn .active).register.visits = [] ∧
      (after (.setYardMode 1 9 [2]) o).register.mode = .closing ∧
      (after (.setYardMode 1 9 [2]) (yardIn .active)).register.mode = .closed ∧
      ((after (.setYardMode 1 9 [4]) o).deck 0).state = .sleep ∧
      (after (.setYardMode 1 9 [1]) (o.withMode .closed)).register.mode = .opened ∧
      (after (.setYardMode 1 9 [4]) (o.withMode .closed)).register.mode = .closed := by decide +kernel

/-- FORCE_CLOSED on a bound visit, by its state. -/
theorem test_force_closed_hyps :
    let forced := fun s : State => after (.setYardMode 1 9 [4]) s
    let i := forced (weighing (.visitIn 3) (visit3 .weighIn))
    let o := forced (weighing (.visitOut 3) leaving)
    let e := forced (raised false)
    i.register.find 3 = some { visit3 .weighIn with failure := some .aborted } ∧ i.bound 0 = some 3 ∧
      o.register.find 3 = some { visit3 .onSite with failure := some .aborted } ∧ o.bound 0 = none ∧
      (i.unit 0).cap = none ∧ (o.unit 0).cap = none ∧
      (e.lane 0).cause = some ⟨.admitted 3, .withdrawn⟩ ∧ e.register.find 3 = some (visit3 .entering) ∧
      e.bound 0 = some 3 ∧ i.register.mode = .closed := by decide +kernel

/-! ### Hypotheses met: the store -/

/-- Payload of a TARE_WRITE: AB12, 12 t, no account, no expiry. -/
def tarePayload : List Byte := [0x41, 0x42, 0x31, 0x32, 0, 0, 0, 0, 0, 0, 0, 0] ++ [0, 0, 0x2E, 0xE0, 0, 0, 0, 0, 0]

theorem test_tare_hyps :
    tareWriteFields? tarePayload = some ⟨[0x41, 0x42, 0x31, 0x32], 12000, none, 0⟩ ∧
      plateField? [0x61, 0x42, 0x31, 0x32, 0, 0, 0, 0, 0, 0, 0, 0] = some [0x41, 0x42, 0x31, 0x32] ∧
      (yardIn .active).store.engine = none ∧
      (after (.tareWrite 1 9 tarePayload) (yardIn .active)).store.engine =
        some ⟨.tare 0 (some ⟨[0x41, 0x42, 0x31, 0x32], 12000, none, 0⟩), none, 8⟩ ∧
      (after (.tareErase 1 9 (tarePayload.take 12)) withTare).store.engine = some ⟨.tare 5 none, none, 8⟩ := by
  decide +kernel

theorem test_setup_in_range :
    CalRecord.default.inRange ∧ DeckSetup.default.inRange ∧ LaneSetup.default.inRange ∧ YardSetup.default.inRange ∧
      (⟨120000, 100, 5, 64, 4, 60, 60, 120⟩ : DeckSetup).inRange ∧ (⟨1000, 1, 0, 2, 1, 1, 1, 0⟩ : DeckSetup).inRange := by
  unfold CalRecord.inRange DeckSetup.inRange LaneSetup.inRange YardSetup.inRange
  decide +kernel

theorem test_setup_hyps :
    (inService.link 1).role = .office ∧ inService.store.engine = none ∧ (inService.deck 0).service = true ∧
      (inService.deck 1).state = .unused ∧ (inService.lane 0).barrier = .down ∧ inService.bound 0 = none ∧
      ((inService.memberIds 0).filter (fun x => x != 0)).length < 8 ∧
      (after (.setupWrite 1 9 (be1 0 ++ (⟨-5, 1, some 0⟩ : CalRecord).bytes) true) inService).store.engine =
        some ⟨.cal 0 ⟨-5, 1, some 0⟩, none, 8⟩ ∧
      (after (.setupWrite 1 9 (be1 24 ++ YardSetup.default.bytes) false) inService).store.engine =
        some ⟨.yard YardSetup.default, none, 8⟩ := by decide +kernel

/-- A write in flight. -/
def writing (w : StoreWrite) (z : Option DeckId) : State :=
  { inService with store := { inService.store with engine := some ⟨w, z, 8⟩ } }

theorem test_write_done_hyps :
    (writing (.yard ⟨1, 0⟩) none).up = true ∧ (writing (.yard ⟨1, 0⟩) none).register.mode ≠ .closing ∧
      (after .storeWriteDone (writing (.yard ⟨1, 0⟩) none)).period = some 2500 ∧
      (after .storeWriteDone (writing (.tare 5 none) none)).store.tare.get 5 = ⟨.emptyMarker, .empty⟩ ∧
      ((after .storeWriteDone (writing (.deck 0 DeckSetup.default) none)).deck 0).setup = DeckSetup.default ∧
      ((after .storeWriteDone (writing (.lane 0 LaneSetup.default) none)).lane 0).setup = LaneSetup.default ∧
      ((after .storeWriteDone (writing (.cal 0 ⟨7, 9, none⟩) none)).deck 0).state = .unused := by decide +kernel

/-- A lane bound while its setup was being written keeps its direction; the record stored has the new one. -/
theorem test_write_on_bound_lane :
    let u : LaneSetup := { LaneSetup.default with enabled := true, direction := .exit, settle := 20 }
    let s : State := { writing (.lane 0 u) none with register := holding (visit3 .weighIn) true }
    let t := after .storeWriteDone s
    s.up = true ∧ s.bound 0 = some 3 ∧ (s.lane 0).setup.direction = .entry ∧
      (t.lane 0).setup = { u with direction := .entry } ∧ (t.store.lane.get 0).cell = .content u ∧
      ((after .storeWriteDone (writing (.lane 0 u) none)).lane 0).setup = u := by decide +kernel

/-- A write of what stands there already cannot be torn; another one can, and an erase. -/
theorem test_abandoned_writes :
    let st := withTare.store
    let e : TareEntry := ⟨[0x41, 0x42, 0x31, 0x32], 12000, some 77, 0⟩
    st.abandoned (.tare 5 (some e)) true = st ∧
      ((st.abandoned (.tare 5 (some { e with tare := 1 })) true).tare.get 5).cell = .mismatch ∧
      st.abandoned (.tare 5 (some { e with tare := 1 })) false = st ∧
      ((st.abandoned (.tare 5 none) true).tare.get 5).cell = .mismatch ∧
      ((st.abandoned (.yard YardSetup.default) true).yard).cell = .mismatch := by decide +kernel

theorem test_zero_cal_ends :
    let s := (writing (.cal 0 ⟨300, 65536, some 0⟩) (some 0)).setDeck 0 { inService.deck 0 with zeroCal := [(0, 300)], zd := 9 }
    (s.deck 0).zeroCal = [(0, 300)] ∧ ((after .storeWriteDone s).deck 0).zd = 0 ∧
      (after .storeWriteDone s).store.engine = none := by decide +kernel

/-! ### Hypotheses met: clock, base, reads, slots -/

theorem test_clock_hyps :
    (yardIn .active).clock.isSet = true ∧ State.reset.clock.isSet = false ∧
      (after .clockSecond (yardIn .active)).clock.time = 1001 ∧
      (after (.setClock 1 9 (be4 4294967295)) (yardIn .active)).clock = ⟨4294967295, true, 0⟩ ∧
      ((after (.setClock 1 9 (be4 29700)) (yardWith .active (visit3 .onSite) false)).register.find 3).map
        (·.flags.overstay) = some true ∧
      ((after (.setClock 1 9 (be4 29699)) (yardWith .active (visit3 .onSite) false)).register.find 3).map
        (·.flags.overstay) = some false := by decide +kernel

theorem test_ticket_base_hyps :
    (State.reset.link 1).role = .office ∧ State.reset.journal.counter = none ∧
      (after (.setTicketBase 1 9 (be4 4294967295)) State.reset).journal.counter = some 4294967295 ∧
      (after (.setTicketBase 1 9 (be4 5)) (yardIn .active)).journal.counter = some 7 := by decide +kernel

/-- A ticket with a number. -/
def ticket (n : Nat) : Ticket := { (visit3 .onSite).voidTicket 950 with number := n }

/-- L-B FOLLOWs with both slots LINK-owned: 5 in ODD is the older, 6 in EVEN; 7 waits. -/
def slotted : State :=
  { yardIn .active with journal :=
      { records := [ticket 5, ticket 6, ticket 7], counter := some 8, low := false
        links := setAt Journal.reset.links 1
          ⟨.follow, .record 7, 2, 0, some (ticket 6), some (ticket 5), .odd, false⟩ } }

theorem test_read_hyps :
    slotted.journal.records.find? (fun t => t.number == 6) = some (ticket 6) ∧ (slotted.jlink 1).slot .odd = some (ticket 5) ∧
      (slotted.jlink 0).slot .odd = none ∧ (yardWith .active (visit3 .onSite) false).register.find 3 = some (visit3 .onSite) ∧
      withTare.store.lookup [0x41] = none := by decide +kernel

theorem test_read_ticket :
    ((after (.readTicket 1 9 (be4 6)) slotted).link 1).tx =
      some (.reply ⟨9, 0x34, .ok, journalSummary slotted ++ (ticket 6).bytes⟩) := by rfl

/-- The bytes written out from the tables: lengths, and those of a part after reset. -/
theorem test_bytes_written_out :
    (ticket 6).record61.length = 61 ∧ (slotted.slotPairBytes 1) =
        [1, 0, 0, 0, 6, 1, 0, 0, 0, 5, 1, 0, 1, 2, 0, 0, 0, 7] ∧
      (yardIn .active).clockBytes = [1, 0, 0, 0x03, 0xE8, 0, 0, 1, 0, 2] := by decide +kernel

theorem test_slot_return_hyps :
    (slotted.jlink 1).slot .odd = some (ticket 5) ∧ (slotted.jlink 1).next = .odd ∧
      ((slotted.jlink 1).slot .even).isSome = true ∧ (slotted.jlink 1).halt = false ∧
      (slotted.jlink 1).cursor = .record 7 ∧ recordsFrom slotted.journal.records 7 = [ticket 7] ∧
      ((after (.slotReturn 1 9 (be1 1)) slotted).jlink 1).odd = some (ticket 7) ∧
      ((after (.slotReturn 1 9 (be1 1)) slotted).jlink 1).cursor = .head ∧
      (after (.slotReturn 1 9 (be1 0)) slotted).journal = slotted.journal := by decide +kernel

/-- L-B FOLLOWs with ODD PART-owned and next to fill. -/
def halfSlotted : State := slotted.setJlink 1 { slotted.jlink 1 with odd := none, slotCount := 1, halt := true }

theorem test_resume_hyps :
    (halfSlotted.jlink 1).role ≠ .none ∧ (halfSlotted.jlink 1).slot (halfSlotted.jlink 1).next = none ∧
      (halfSlotted.jlink 1).cursor = .record 7 ∧
      ((after (.slotResume 1 9 []) halfSlotted).jlink 1).odd = some (ticket 7) ∧
      ((after (.slotHalt 1 9 []) slotted).jlink 1).halt = true := by decide +kernel

theorem test_subscription_hyps :
    (0x7F : BitVec 8).getLsbD 7 = false ∧ (0x80 : BitVec 8).getLsbD 7 = true ∧
      ((after (.setSubscription 2 9 [0x7F]) (yardIn .active)).link 2).mask = 0x7F ∧
      ((after (.setSubscription 2 9 [0x80]) (yardIn .active)).link 2).mask = 0x44 := by decide +kernel

theorem test_journal_role_hyps :
    ((yardIn .active).link 2).role = .kiosk ∧ ((yardIn .active).link 1).role ≠ .kiosk ∧
      ((after (.setJournalRole 2 9 (be1 2)) (yardIn .active)).jlink 2).role = .none ∧
      ((after (.setJournalRole 1 9 (be1 2)) (yardIn .active)).jlink 1).cursor = .head := by decide +kernel

/-! ### Hypotheses met: lines, resets, invariants -/

theorem test_line_hyps :
    let k : LinkState := { LinkState.quiet .office 0x7F with
      request := some ⟨9, 0x2C, true⟩, tx := some (.reply ⟨9, 0x2C, .accepted, []⟩) }
    let s := (yardIn .active).setLink 1 k
    s.taking = true ∧ (s.link 1).role ≠ .disabled ∧ (s.link 1).tx = some (.reply ⟨9, 0x2C, .accepted, []⟩) ∧
      (s.link 1).request = some ⟨9, 0x2C, true⟩ ∧ (after (.frameSent 1) s).power.restartDue = true ∧
      ((after (.frameSent 0) State.reset).link 0).queue.length = 2 ∧
      ((after (.frameLeadByte 1) (yardIn .active)).link 1).rx = some [0xC3] ∧
      ((after (.badFrame 1 .crcMismatch) (after (.frameLeadByte 1) (yardIn .active))).link 1).rx = none := by
  decide +kernel

theorem test_refusal_hyps :
    let busy := after (.restart 1 9 []) (yardIn .active)
    let starting := { yardIn .active with power := { Power.reset with phase := .starting } }
    requestOf (.unknownKind 1 0x09 4 []) = some (1, 0x09, 4) ∧ busy.taking = true ∧
      (busy.link 1).request.isSome = true ∧ (starting.link 1).request = none ∧
      ((after (.readClock 1 4 []) busy).link 1).replies = [⟨4, 0x2A, .busy, []⟩] ∧
      ((after (.readClock 1 4 []) starting).link 1).tx = some (.reply ⟨4, 0x2A, .starting, []⟩) ∧
      ((after (.unknownKind 1 0x09 4 []) (yardIn .active)).link 1).tx = some (.reply ⟨4, 0x09, .badRequest, []⟩) := by
  decide +kernel

/-- A link that is sending, with room, with a word queued, and with a full queue. -/
def sending (q : List Notice) : LinkState :=
  { LinkState.quiet .office 0x7F with tx := some (.notice .overrun), queue := q }

theorem test_queue_hyps :
    (sending []).tx.isSome = true ∧ (sending []).takes (.yard .closed) = true ∧
      (LinkState.quiet .kiosk 0x44).takes (.yard .closed) = false ∧
      (sending [.laneStatus (StatusWord.reset 2)]).offer (.laneStatus { StatusWord.reset 2 with busy := true }) =
        sending [.laneStatus { StatusWord.reset 2 with busy := true }] ∧
      ((sending (List.replicate 24 (.yard .opened))).offer (.yard .closed)).overrun = true ∧
      ((sending (List.replicate 23 (.yard .opened) ++ [.overrun])).offer (.yard .closed)).overrun = false := by
  decide +kernel

theorem test_reset_event_hyps :
    (yardIn .active).power.main = true ∧ (yardIn .active).power.resetPin = false ∧
      (after .mainSupplyLoss (yardIn .active)).power.main = false ∧
      (after .backupSupplyFail (after .mainSupplyLoss (yardIn .active))).power.backupValid = false ∧
      (after .resetPinAssert (yardIn .active)).power.resetPin = true ∧
      (after (.resetPinRelease coldStraps) (after .resetPinAssert (yardIn .active))).power.phase = .starting := by
  decide +kernel

/-- The yard stopped and started again by the reset input. -/
def restarted : State := after (.resetPinRelease coldStraps) (after .resetPinAssert (yardWith .active (visit3 .onSite) false))

theorem test_scan_hyps :
    restarted.taking = true ∧ restarted.power.phase = .starting ∧ restarted.power.checkPending = false ∧
      ((after .storeScanDone restarted).register.find 3).map (·.flags.restartSeen) = some true ∧
      (after .storeScanDone restarted).power.lastKind = .resetPin ∧
      (after (.powerOn coldStraps) cold).power.checkPending = true ∧
      (after (.powerOn coldStraps) cold).power.backupValid = false := by decide +kernel

/-- A reset with what follows it, to the end of start-up. -/
def throughReset (s : State) : State :=
  after .storeScanDone (after (.resetPinRelease coldStraps) (after .resetPinAssert s))

/-- The cursor goes back over the two slots and they fill again; a waiting capture and an exit weighing are aborted; a
torn entry is told. -/
theorem test_start_up_clauses :
    let j := (throughReset slotted).jlink 1
    let i := throughReset (weighing (.visitIn 3) { visit3 .weighIn with capMark := true })
    let o := throughReset (weighing (.visitOut 3) leaving)
    let torn := throughReset { yardIn .active with store := { Store.reset with
      tare := setAt Store.reset.tare 5 ⟨.mismatch, .invalid⟩ } }
    (j.even, j.odd, j.cursor, j.slotCount) = (some (ticket 5), some (ticket 6), .record 7, 2) ∧
      (Notice.ticket .even 5) ∈ ((throughReset slotted).link 1).queue ∧
      (i.register.find 3).bind (·.failure) = some .aborted ∧ i.bound 0 = some 3 ∧
      (o.register.find 3).map (·.state) = some .onSite ∧ o.bound 0 = none ∧
      (Notice.storeLost .tare 5) ∈ (torn.link 1).queue := by decide +kernel

theorem test_restart_hyps :
    let s := { yardWith .active (visit3 .onSite) false with
      power := { Power.reset with restartDue := true }
      store := { Store.reset with engine := some ⟨.tare 5 none, none, 8⟩ } }
    let u := { yardWith .active (visit3 .onSite) false with power := { Power.reset with restartDue := true } }
    s.up = true ∧ s.power.restartDue = true ∧ s.store.engine = some ⟨.tare 5 none, none, 8⟩ ∧
      ((after (.restartBegin coldStraps) u).deck 0).state = .warming ∧
      (after (.restartBegin coldStraps) u).power.lastKind = .restart := by decide +kernel

/-- A restart gives the lane of a RELEASED visit the direction EXIT, and keeps the rest of its setup. -/
theorem test_restart_direction :
    let s := { yardWith .active (visit3 .released) true with power := { Power.reset with restartDue := true } }
    let t := after (.restartBegin coldStraps) s
    s.up = true ∧ t.bound 0 = some 3 ∧ (s.lane 0).setup.direction = .entry ∧
      (t.lane 0).setup = { (s.lane 0).setup with direction := .exit } := by decide +kernel

/-- The invariants hold in a yard at work that steps. -/
theorem test_invariant_hyps :
    (yardWith .active (visit3 .entering) true).barriersSafe ∧
      (∀ l, ((yardWith .active (visit3 .entering) true).link l).bounded) ∧
      (yardWith .active (visit3 .entering) true).register.distinct ∧
      (yardWith .active (visit3 .entering) true).closingHolds ∧ slotted.journal.sequenced ∧ slotted.withinHeadroom := by
  refine ⟨?_, ?_, ?_, ?_, ?_, ?_⟩
  · unfold State.barriersSafe Lane.shown Lane.clearGuarded
    decide +kernel
  · unfold LinkState.bounded
    decide +kernel
  · unfold Register.distinct
    decide +kernel
  · exact open_closingHolds _ (by decide +kernel)
  · unfold Journal.sequenced
    exact ⟨by decide +kernel, by decide +kernel, by decide +kernel, by decide +kernel, rfl, rfl, rfl⟩
  · unfold State.withinHeadroom
    decide +kernel

theorem test_bindings_hyps (v : Visit) (h : v.state ≠ .onSite) :
    (yardWith .active v true).register.boundOnce := by
  refine ⟨?_, ?_⟩
  · intro n w hw
    refine ⟨v, List.mem_singleton.mpr rfl, ?_, h⟩
    revert hw
    fin_cases n <;> intro hw <;> first | exact Option.some.inj hw | cases hw
  · intro n m w hw hw'
    fin_cases n <;> fin_cases m <;> first | rfl | (cases hw; done) | cases hw'

/-- The registers on which FORCE_CLOSED is witnessed are sound. -/
theorem test_force_closed_registers :
    (weighing (.visitIn 3) (visit3 .weighIn)).register.distinct ∧ (weighing (.visitOut 3) leaving).register.distinct ∧
      (weighing (.visitIn 3) (visit3 .weighIn)).register.boundOnce ∧
      (weighing (.visitOut 3) leaving).register.boundOnce := by
  refine ⟨?_, ?_, test_bindings_hyps _ (by decide), test_bindings_hyps _ (by decide)⟩ <;>
  · unfold Register.distinct
    decide +kernel

/-- Words that stand for their lanes, and a word that a WAKE changes and tells. -/
theorem test_words_hyps :
    let s := after .periodTimerExpiry (yardIn .sleep)
    let t := after (.wake 1 9 (be1 0)) s
    (∀ n, s.wordShown n) ∧ (t.lane 0).word ≠ (s.lane 0).word ∧
      Notice.laneStatus (t.lane 0).word ∈ (t.link 1).queue := by
  unfold State.wordShown
  decide +kernel

theorem test_step_of_a_yard_at_work :
    step { yardWith .active (visit3 .entering) true with pending := [.settleTimerExpiry 0] } =
      .next (yardWith .active (visit3 .entering) true) := by rfl

theorem test_commands_answer_a_next_state :
    (∃ t, exec .periodTimerExpiry (yardIn .active) = .next t) ∧
      ∃ t, exec (.wake 1 9 (be1 0)) (yardIn .active) = .next t := ⟨⟨_, rfl⟩, ⟨_, rfl⟩⟩

/-! ### Ready links and the clauses left -/

/-- The states in which the statements' requests are witnessed have ready links. -/
theorem test_ready_variants :
    ∀ s ∈ [steady .active, inService, armIn (yardIn .active) .up, armIn (yardIn .active) .jammed,
        yardWith .active (visit3 .entering) true, yardWith .active (visit3 .weighIn) true,
        yardWith .active (visit3 .released) true, yardWith .active (visit3 .onSite) false, withTare,
        asExit (yardWith .active (visit3 .onSite) false), asExit (yardWith .active storedVisit false), slotted,
        halfSlotted, State.reset],
      s.up = true ∧ (s.link 1).role = .office ∧ (s.link 1).request = none ∧ (s.link 2).role = .kiosk ∧
        (s.link 2).request = none := by decide +kernel

theorem test_arm_clauses (b : Barrier) :
    ((debouncing (armIn (yardIn .active) b) .clear true).lane 0).barrier = b ∧
      (debouncing (armIn (yardIn .active) b) .clear true).up = true := by cases b <;> decide +kernel

/-- A stored tare that is not there: the visit falls back to WEIGHED, and an entry weighing starts. -/
theorem test_admit_falls_back :
    (yardIn .active).store.lookup [0x41, 0x42, 0x31, 0x32] = none ∧
      ((after (.admitVehicle 1 9 (admitPayload 2 2)) (yardIn .active)).register.find 1).map
        (fun v => (v.tareMode, v.state, v.flags.tareFallback)) = some (.weighed, .weighIn, true) := by decide +kernel

/-- RERAISE serves a RELEASED visit at an exit lane. -/
theorem test_reraise_at_exit :
    ((after (.reraise 2 9 (be1 0)) (asExit (yardWith .active (visit3 .released) true))).lane 0).cause =
      some ⟨.released 3, .pending⟩ := by decide +kernel

/-- A raise by LOWER_RESET's other clauses: a PENDING VISIT cause keeps the arm, any other is withdrawn. -/
theorem test_lower_reset_clauses :
    let v := withLane (armIn (yardIn .active) .up) (fun k => { k with cause := some ⟨.admitted 3, .pending⟩ })
    let m := withLane (armIn (yardIn .active) .up) (fun k => { k with cause := some ⟨.manual, .pending⟩ })
    (v.lane 0).pendingCause Cause.isVisit = true ∧ (m.lane 0).pendingCause Cause.isVisit = false ∧
      ((after (.lowerReset 1 9 (be1 0)) v).lane 0).barrier = .up ∧
      ((after (.lowerReset 1 9 (be1 0)) m).lane 0).barrier = .lowering := by decide +kernel

/-- The status that goes out on L-B after a command. -/
def answers (i : Instr) (s : State) : Option Status :=
  match ((after i s).link 1).tx with
  | some (.reply r) => some r.status
  | some (.notice _) => none
  | none => none

/-- The first check that fails answers: the first of ADMIT, one in the middle and the last; a disabled lane's
LOWER_RESET. -/
theorem test_admit_check_hyps :
    let s := yardIn .active
    let admitted := Instr.admitVehicle 1 9 (admitPayload 1 1)
    let busy : State := { s with units := setAt s.units 0 (captureOf (.visitOut 8)) }
    answers admitted (withLane s (fun k => { k with setup := { k.setup with enabled := false } })) = some .laneDisabled ∧
      answers admitted (asExit s) = some .wrongLane ∧
      answers admitted { s with register := holding (visit3 .onSite) false } = some .duplicate ∧
      answers admitted (yardIn .fault) = some .deckNotReady ∧ answers admitted busy = some .deckBusy ∧
      answers (.lowerReset 1 9 (be1 1)) s = some .laneDisabled ∧ s.disabled 1 = true := by decide +kernel

theorem test_depart_check_hyps :
    let s := asExit (yardWith .active (visit3 .onSite) false)
    let depart := Instr.depart 1 9 departPayload
    answers depart (yardWith .active (visit3 .onSite) false) = some .wrongLane ∧
      answers depart { s with register := { s.register with visits := [] } } = some .noSuchVisit ∧
      answers depart { s with register := holding (visit3 .entering) false } = some .wrongState ∧
      answers depart (s.setDeck 0 (deckIn .fault)) = some .deckNotReady := by decide +kernel

theorem test_zero_check_hyps :
    answers (.zeroDeck 1 9 (be1 0)) (yardIn .sleep) = some .deckNotReady ∧
      answers (.zeroDeck 1 9 (be1 0)) (yardIn .active) = some .zeroRange ∧
      answers (.zeroDeck 1 9 (be1 1)) (steady .active) = some .deckNotReady := by decide +kernel

end Sys2Proof.Tests
end

section
/-! PROOF. The rounding of the deck arithmetic (00_scope.md 5): a sign falls through it, and what it does to a natural
number. -/

namespace Sys2Proof.Machine

theorem roundDiv_natCast (n b : Nat) : roundDiv (n : Int) b = (((2 * n + b) / (2 * b) : Nat) : Int) := by
  simp [roundDiv]

theorem roundDiv_neg (a : Int) (b : Nat) (hb : 0 < b) : roundDiv (-a) b = -roundDiv a b := by
  rcases lt_trichotomy a 0 with h | rfl | h
  · simp [roundDiv, h, h.le]
  · simp [roundDiv_zero b hb]
  · simp [roundDiv, h, h.le]

/-- The rounded quotient q of n: n lies from q b - b / 2 (reached at a half, which goes up) to below q b + b / 2. -/
theorem roundDiv_natCast_bounds (n b : Nat) (hb : 0 < b) :
    2 * (roundDiv n b * b) ≤ 2 * n + b ∧ 2 * (n : Int) < 2 * (roundDiv n b * b) + b := by
  have hdiv := Nat.div_add_mod (2 * n + b) (2 * b)
  have hmod := Nat.mod_lt (2 * n + b) (show 0 < 2 * b by omega)
  rw [roundDiv_natCast]
  generalize (2 * n + b) / (2 * b) = q at hdiv ⊢
  have hq : 2 * b * q = 2 * (q * b) := by ring
  norm_cast
  omega

/-- Settles O6: the sign falls through the rounding, and a natural number lies within its bounds. -/
theorem roundingGoesHalfAwayFromZero : Obligations.RoundingGoesHalfAwayFromZero := by
  intro a b hb
  obtain ⟨n, rfl | rfl⟩ := a.eq_nat_or_neg <;>
  · have hn := roundDiv_natCast_bounds n b hb
    simp only [roundDiv_neg _ b hb, neg_neg, neg_mul]
    refine ⟨by omega, fun hhalf => by omega, trivial⟩

end Sys2Proof.Machine
end

section
/-! PROOF. The reads (R26, R49, R68, R92, R127, R135, R141, R160, R168, R199, R206): a body that changes nothing leaves
nothing changed but the link that asked. -/

namespace Sys2Proof.Machine

/-- A command answered on its link, where nothing but the link and the sampled level of CALEN changes. -/
def State.answersRead (s : State) (l : LinkId) (tag : Byte) (i : Instr) (code : Byte) (st : Status)
    (data : List Byte) : Prop :=
  ∃ t, exec i s = .next t ∧ t.replied l tag code st data ∧ s.onlyLinkAndPin t l

theorem everyRole_of_enabled {r : Role} (h : r ≠ .disabled) : everyRole r = true := by
  cases r with
  | disabled => exact absurd rfl h
  | gate | office | kiosk => rfl

/-- A request open to every role whose body changes nothing is answered with that body's status and data. -/
theorem request_unchanged {α : Type} {l : LinkId} {s : State} (h : s.ready l) (code tag : Byte) (x : α)
    (body : α → State → Answer) (st : Status) (data : List Byte)
    (hb : body x (s.handling l code tag) = ⟨s.handling l code tag, st, data⟩) :
    (request l code tag everyRole (some x) body s).replied l tag code st data ∧
      s.onlyLink (request l code tag everyRole (some x) body s) l := by
  obtain ⟨e, hr⟩ := request_answer h code tag everyRole x body (everyRole_of_enabled h.2.1) _ hb rfl
  refine ⟨hr, ?_⟩
  rw [e]
  simp [State.onlyLink, State.handling]

/-! ### The bodies of the reads that can be refused -/

theorem readVisitBody_of_some {s : State} {v : Nat} {x : Visit} (hx : s.register.find v = some x) :
    readVisitBody v s = readOnly x.bytes s := by
  simp [readVisitBody, hx]

theorem readVisitBody_of_none {s : State} {v : Nat} (hx : s.register.find v = none) :
    readVisitBody v s = refuse .noSuchVisit s := by
  simp [readVisitBody, hx]

theorem readTicketBody_zero (s : State) : readTicketBody 0 s = readOnly (journalSummary s) s := by
  simp [readTicketBody]

theorem readTicketBody_of_some {s : State} {n : Nat} {t : Ticket} (hn : n ≠ 0)
    (ht : s.journal.records.find? (fun t => t.number == n) = some t) :
    readTicketBody n s = readOnly (journalSummary s ++ t.record61) s := by
  simp [readTicketBody, hn, ht, ticket_bytes]

theorem readTicketBody_of_absent {s : State} {n : Nat} (hn : n ≠ 0) (ht : ∀ t ∈ s.journal.records, t.number ≠ n) :
    readTicketBody n s = refuse .notFound s := by
  have hf : s.journal.records.find? (fun t => t.number == n) = none := by simpa [List.find?_eq_none] using ht
  simp [readTicketBody, hn, hf]

theorem slotReadBody_of_some {s : State} {l : LinkId} {i : SlotId} {t : Ticket} (ht : (s.jlink l).slot i = some t) :
    slotReadBody l i s = readOnly (s.slotPairBytes l ++ t.record61) s := by
  simp [slotReadBody, ht, ticket_bytes, slotStatus_bytes]

theorem slotReadBody_of_none {s : State} {l : LinkId} {i : SlotId} (ht : (s.jlink l).slot i = none) :
    slotReadBody l i s = refuse .notOwned s := by
  simp [slotReadBody, ht]

theorem tareReadBody_of_some {s : State} {p : Plate} {i : Fin 256} {e : TareEntry}
    (hp : s.store.lookup p = some (i, e)) : tareReadBody (.byPlate p) s = readOnly (tareByPlateData s i e) s := by
  simp [tareReadBody, hp]

theorem tareReadBody_of_none {s : State} {p : Plate} (hp : s.store.lookup p = none) :
    tareReadBody (.byPlate p) s = refuse .notFound s := by
  simp [tareReadBody, hp]

/-- TARE_READ by index: the registration field is not checked (R135, R192). -/
theorem tareReadFields_byIndex (i : Fin 256) {q : List Byte} (hq : q.length = 12) :
    tareReadFields? (be1 0 ++ be1 i.val ++ q) = some (.byIndex i) := by
  simp [tareReadFields?, be1, hq]

/-- TARE_READ by registration: the index field is not checked (R135, R192). -/
theorem tareReadFields_byPlate (b : Byte) {q : List Byte} {p : Plate} (hq : q.length = 12) (hp : plate? q = some p) :
    tareReadFields? (be1 1 ++ [b] ++ q) = some (.byPlate p) := by
  simp [tareReadFields?, be1, hq, hp]

/-! ### The reads on a ready link -/

/-- The part as a request that samples the CALEN pin finds it. -/
def State.withCalen (s : State) (calen : Bool) : State := { s with power := { s.power with calen := calen } }

theorem onlyLinkAndPin_of_withCalen {s t : State} {l : LinkId} {calen : Bool} (h : (s.withCalen calen).onlyLink t l) :
    s.onlyLinkAndPin t l := by
  unfold State.onlyLink at h
  unfold State.onlyLinkAndPin
  have hp : t.power.calen = calen := by rw [h]; rfl
  rw [hp]
  exact h

section
variable {s : State} {l : LinkId} (h : s.ready l) (tag : Byte)
include h

/-- A read on a ready link: what its body answers is answered, and nothing else changes. -/
theorem answersRead_of_body {α : Type} {i : Instr} {code : Byte} {fields : Option α} {body : α → State → Answer} (x : α)
    {st : Status} {data : List Byte} (he : exec i s = .next (request l code tag everyRole fields body s))
    (hf : fields = some x) (hb : body x (s.handling l code tag) = ⟨s.handling l code tag, st, data⟩) :
    s.answersRead l tag i code st data := by
  subst hf
  obtain ⟨hr, ho⟩ := request_unchanged h code tag x body st data hb
  exact ⟨_, he, hr, onlyLinkAndPin_of_withCalen (calen := s.power.calen) ho⟩

theorem readClock_answers : s.answersRead l tag (.readClock l tag []) 0x2A .ok s.clockBytes := by
  rw [← readClockData_bytes]
  exact answersRead_of_body h tag () rfl rfl rfl

theorem identify_answers : s.answersRead l tag (.identify l tag []) 0x2D .ok
    ([0x0A, 0x6E, 0x01, 0xB8, 3, 2] ++ be1 l.val ++ be1 (s.link l).role.code ++ be1 (s.link l).speed.toNat) := by
  refine answersRead_of_body h tag () rfl rfl ?_
  simp only [readOnly, identifyData, State.handling, setLink_link_self, LinkState.take]
  rfl

theorem readDeck_answers (d : DeckId) :
    s.answersRead l tag (.readDeck l tag (be1 d.val)) 0x30 .ok (readDeckData s d) :=
  answersRead_of_body h tag d rfl (quadField_be1 d) rfl

theorem readLane_answers (n : LaneId) :
    s.answersRead l tag (.readLane l tag (be1 n.val)) 0x31 .ok (readLaneData s n) :=
  answersRead_of_body h tag n rfl (quadField_be1 n) rfl

theorem readVisit_answers {v : Nat} (hv : v < 65536) :
    (∀ x, s.register.find v = some x → s.answersRead l tag (.readVisit l tag (be2 v)) 0x32 .ok x.bytes) ∧
      (s.register.find v = none → s.answersRead l tag (.readVisit l tag (be2 v)) 0x32 .noSuchVisit []) :=
  ⟨fun _ hx => answersRead_of_body h tag v rfl (visitField_be2 v hv) (readVisitBody_of_some hx),
    fun hx => answersRead_of_body h tag v rfl (visitField_be2 v hv) (readVisitBody_of_none hx)⟩

theorem listVisits_answers {a b : Nat} (ha : a ≤ 95) (h1 : 1 ≤ b) (h2 : b ≤ 8) :
    s.answersRead l tag (.listVisits l tag (be1 a ++ be1 b)) 0x33 .ok (listVisitsData s a b) :=
  answersRead_of_body h tag (a, b) rfl (listFields_be a b ha h1 h2) rfl

theorem readTicket_answers {n : Nat} (hn : n < 4294967296) :
    (n = 0 → s.answersRead l tag (.readTicket l tag (be4 n)) 0x34 .ok (journalSummary s)) ∧
      (∀ t, n ≠ 0 → s.journal.records.find? (fun t => t.number == n) = some t →
        s.answersRead l tag (.readTicket l tag (be4 n)) 0x34 .ok (journalSummary s ++ t.record61)) ∧
      (n ≠ 0 → (∀ t ∈ s.journal.records, t.number ≠ n) →
        s.answersRead l tag (.readTicket l tag (be4 n)) 0x34 .notFound []) := by
  have hf := wordField_be4 n hn
  refine ⟨fun h0 => ?_, fun t h0 ht => ?_, fun h0 ht => ?_⟩
  · subst h0
    exact answersRead_of_body h tag 0 rfl hf (readTicketBody_zero _)
  · exact answersRead_of_body h tag n rfl hf (readTicketBody_of_some h0 ht)
  · exact answersRead_of_body h tag n rfl hf (readTicketBody_of_absent h0 ht)

theorem slotRead_answers (i : SlotId) :
    (∀ t, (s.jlink l).slot i = some t →
        s.answersRead l tag (.slotRead l tag (be1 i.code)) 0x38 .ok (s.slotPairBytes l ++ t.record61)) ∧
      ((s.jlink l).slot i = none → s.answersRead l tag (.slotRead l tag (be1 i.code)) 0x38 .notOwned []) :=
  ⟨fun _ ht => answersRead_of_body h tag i rfl (slotField_be1 i) (slotReadBody_of_some ht),
    fun ht => answersRead_of_body h tag i rfl (slotField_be1 i) (slotReadBody_of_none ht)⟩

theorem tareReadByIndex_answers (i : Fin 256) {q : List Byte} (hq : q.length = 12) :
    s.answersRead l tag (.tareRead l tag (be1 0 ++ be1 i.val ++ q)) 0x22 .ok (tareByIndexData s i) :=
  answersRead_of_body h tag (.byIndex i) rfl (tareReadFields_byIndex i hq) rfl

theorem tareReadByPlate_answers (b : Byte) {q : List Byte} {p : Plate} (hq : q.length = 12) (hp : plate? q = some p) :
    (∀ i e, s.store.lookup p = some (i, e) →
        s.answersRead l tag (.tareRead l tag (be1 1 ++ [b] ++ q)) 0x22 .ok (tareByPlateData s i e)) ∧
      (s.store.lookup p = none →
        s.answersRead l tag (.tareRead l tag (be1 1 ++ [b] ++ q)) 0x22 .notFound []) :=
  have hf := tareReadFields_byPlate b hq hp
  ⟨fun _ _ hl => answersRead_of_body h tag (.byPlate p) rfl hf (tareReadBody_of_some (s := s.handling l 0x22 tag) hl),
    fun hl => answersRead_of_body h tag (.byPlate p) rfl hf (tareReadBody_of_none (s := s.handling l 0x22 tag) hl)⟩

theorem setupRead_answers (i : SetupIndex) (calen : Bool) :
    s.answersRead l tag (.setupRead l tag (be1 i.number) calen) 0x24 .ok (setupReadData s i calen) := by
  have hs : (s.withCalen calen).ready l := h
  have hf := setupIndexField_be1 i
  obtain ⟨hr, ho⟩ := request_unchanged hs 0x24 tag i (fun i s => readOnly (setupReadData s i calen) s) .ok
    (setupReadData s i calen) rfl
  refine ⟨_, ?_, hr, onlyLinkAndPin_of_withCalen ho⟩
  rw [← hf]
  rfl

end

/-- Settles O43, read by read. -/
theorem readsReportAndChangeNothing : Obligations.ReadsReportAndChangeNothing := fun _ _ tag h =>
  ⟨readClock_answers h tag, identify_answers h tag, readDeck_answers h tag, readLane_answers h tag,
    fun _ hv => readVisit_answers h tag hv, fun _ _ ha h1 h2 => listVisits_answers h tag ha h1 h2,
    fun _ hn => readTicket_answers h tag hn, slotRead_answers h tag,
    fun i _ hq => tareReadByIndex_answers h tag i hq, fun b _ _ hq hp => tareReadByPlate_answers h tag b hq hp,
    setupRead_answers h tag⟩

end Sys2Proof.Machine
end

section
/-! PROOF. The cell bus (R1 to R7, R15 to R24, R33, R34): what a reading, a sample and a period's end do to channels and
decks, and what the close of their event leaves. -/

namespace Sys2Proof.Machine

/-! ### A CLOSING yard keeps its visits -/

/-- The register has the mode and as many visits as before. -/
def Register.sameSize (r r' : Register) : Prop := r'.mode = r.mode ∧ r'.visits.length = r.visits.length

theorem Register.sameSize.refl (r : Register) : r.sameSize r := ⟨rfl, rfl⟩

theorem Register.sameSize.trans {a b c : Register} (h : a.sameSize b) (h' : b.sameSize c) : a.sameSize c :=
  ⟨h'.1.trans h.1, h'.2.trans h.2⟩

theorem update_sameSize (r : Register) (v : Nat) (f : Visit → Visit) : r.sameSize (r.update v f) :=
  ⟨rfl, by simp [Register.update]⟩

theorem unbind_sameSize (r : Register) (v : Nat) : r.sameSize (r.unbind v) := ⟨rfl, rfl⟩

theorem closingHolds_of_sameSize {s t : State} (h : s.register.sameSize t.register) (hc : s.closingHolds) :
    t.closingHolds := by
  obtain ⟨hm, hl⟩ := h
  intro hmode hnil
  refine hc (hm ▸ hmode) (List.length_eq_zero_iff.mp ?_)
  rw [← hl, hnil]
  rfl

/-- R114: a release writes the journal and changes the one visit. -/
theorem releaseVisit_sameSize (v : Visit) (s : State) : s.register.sameSize (releaseVisit v s).register := by
  have hw : (writeRecord (v.releaseTicket s.clock.time) s).register = s.register := by rw [(writeRecord_frame _ s).1]
  exact hw ▸ update_sameSize _ _ _

/-- R104, R105: only the failure VEHICLE_LEFT takes the visit out of the register. -/
theorem entryOutcome_sameSize (n : LaneId) (v : Visit) {o : CapOutcome} (s : State) (ho : o ≠ .failed .vehicleLeft) :
    s.register.sameSize (entryOutcome n v o s).register := by
  unfold entryOutcome
  split
  · rw [raiseIfOccupied_register]
    exact update_sameSize _ _ _
  · exact absurd rfl ho
  · exact update_sameSize _ _ _

theorem exitOutcome_sameSize (n : LaneId) (v : Visit) (o : CapOutcome) (s : State) :
    s.register.sameSize (exitOutcome n v o s).register := by
  unfold exitOutcome
  split
  · rw [fillAll_frame]
    dsimp only
    rw [raiseIfOccupied_register]
    exact releaseVisit_sameSize _ s
  · exact (update_sameSize _ _ _).trans (unbind_sameSize _ _)

theorem handOutcome_sameSize (n : LaneId) (w : CapOwner) {o : CapOutcome} (s : State)
    (ho : o ≠ .failed .vehicleLeft) : s.register.sameSize (handOutcome n w o s).register := by
  have hself := Register.sameSize.refl s.register
  unfold handOutcome
  split
  · split
    · exact hself
    · split
      · exact entryOutcome_sameSize n _ s ho
      · exact hself
  · split
    · exact hself
    · split
      · exact exitOutcome_sameSize n _ o s
      · exact hself
  · exact hself

theorem endCapture_sameSize (d : DeckId) {o : CapOutcome} (s : State) (ho : o ≠ .failed .vehicleLeft) :
    s.register.sameSize (endCapture d o s).register := by
  unfold endCapture
  split
  · exact Register.sameSize.refl _
  · exact handOutcome_sameSize d _ _ ho

theorem onDeckState_sameSize (d : DeckId) (new : DeckState) (s : State) :
    s.register.sameSize (onDeckState d new s).register := by
  have htime : (startTimeout d s).register = s.register := by
    unfold startTimeout
    split
    · rfl
    · split <;> rfl
  cases new with
  | active => exact htime ▸ Register.sameSize.refl s.register
  | warming => exact Register.sameSize.refl _
  | _ => exact endCapture_sameSize d s (by decide)

theorem deckChange_sameSize (d : DeckId) (new : DeckState) (cause : WakeCause) (s : State) :
    s.register.sameSize (deckChange d new cause s).register :=
  onDeckState_sameSize d new (enterDeck d new cause s)

theorem enterFault_sameSize (d : DeckId) (s : State) : s.register.sameSize (enterFault d s).register := by
  unfold enterFault
  split
  · exact deckChange_sameSize _ _ _ s
  · exact Register.sameSize.refl _

theorem decideSample_ne_vehicleLeft (u : DeckSetup) (spot : Bool) (w : CurrentWeight) (r : Weighing) :
    decideSample u spot w r ≠ .failed .vehicleLeft := by
  unfold decideSample
  split
  · decide
  · split
    · cases spot <;> decide
    · split <;> simp

/-- The capture unit's look at a sample: decks and channels stay, and so do the mode and the number of visits. -/
theorem examineSample_frame (d : DeckId) (zl : Bool) (s : State) :
    (examineSample d zl s).decks = s.decks ∧ (examineSample d zl s).channels = s.channels ∧
      s.register.sameSize (examineSample d zl s).register := by
  unfold examineSample
  split
  · split
    · obtain ⟨_, hdecks, hchannels, _⟩ := endCapture_frame d (decideSample (s.deck d).setup _ _ _) s
      exact ⟨hdecks, hchannels, endCapture_sameSize d s (decideSample_ne_vehicleLeft _ _ _ _)⟩
    · exact ⟨rfl, rfl, Register.sameSize.refl _⟩
  · exact ⟨rfl, rfl, Register.sameSize.refl _⟩

/-! ### Readings stay -/

/-- The channel's last reading stands; misses and LOST are as they were, or ended. -/
structure Channel.Follows (ch ch' : Channel) : Prop where
  raw : ch'.raw = ch.raw
  saturation : ch'.saturation = ch.saturation
  missed : ch'.missed = ch.missed ∨ ch'.missed = 0
  lost : ch'.lost = ch.lost ∨ ch'.lost = false

theorem Channel.Follows.refl (ch : Channel) : ch.Follows ch := ⟨rfl, rfl, .inl rfl, .inl rfl⟩

theorem Channel.Follows.trans {a b c : Channel} (h : a.Follows b) (h' : b.Follows c) : a.Follows c where
  raw := h'.raw.trans h.raw
  saturation := h'.saturation.trans h.saturation
  missed := h'.missed.elim (fun e => e ▸ h.missed) .inr
  lost := h'.lost.elim (fun e => e ▸ h.lost) .inr

theorem onDeckChange_follows (old new : DeckState) (ch : Channel) : ch.Follows (ch.onDeckChange old new) := by
  unfold Channel.onDeckChange
  split
  · exact ⟨rfl, rfl, .inr rfl, .inr rfl⟩
  · split
    · exact ⟨rfl, rfl, .inl rfl, .inl rfl⟩
    · exact Channel.Follows.refl ch

/-- Every channel's last reading stands. -/
def State.readingsStand (s t : State) : Prop := ∀ c, (s.chan c).Follows (t.chan c)

theorem readingsStand_refl (s : State) : s.readingsStand s := fun _ => Channel.Follows.refl _

theorem readingsStand_of_channels {s t : State} (h : t.channels = s.channels) : s.readingsStand t := by
  intro c
  have hc : t.chan c = s.chan c := by unfold State.chan; rw [h]
  exact hc ▸ Channel.Follows.refl _

theorem State.readingsStand.trans {a b c : State} (h : a.readingsStand b) (h' : b.readingsStand c) :
    a.readingsStand c := fun j => (h j).trans (h' j)

/-- A change of a deck's members that lets each reading stand. -/
theorem readingsStand_of_mapMembers {s t : State} {d : DeckId} {f : Channel → Channel}
    (h : t.channels = mapMembers d f s.channels) (hf : ∀ ch : Channel, ch.Follows (f ch)) : s.readingsStand t := by
  intro c
  have hc : t.chan c = if (s.chan c).memberOf d then f (s.chan c) else s.chan c := by
    unfold State.chan; rw [h, get_mapMembers]
  rw [hc]
  split
  · exact hf _
  · exact Channel.Follows.refl _

theorem readingsStand_deckChange (d : DeckId) (new : DeckState) (cause : WakeCause) (s : State) :
    s.readingsStand (deckChange d new cause s) :=
  have ⟨_, _, hchannels, _⟩ := deckChange_frame d new cause s
  readingsStand_of_mapMembers hchannels (onDeckChange_follows _ new)

theorem readingsStand_leaveFault (d : DeckId) (s : State) : s.readingsStand (leaveFault d s) := by
  unfold leaveFault
  split
  · exact readingsStand_deckChange _ _ _ s
  · exact readingsStand_refl s

theorem readingsStand_becomeClosed (s : State) : s.readingsStand (becomeClosed s) := by
  unfold becomeClosed
  generalize allDecks = ds
  have hmode : s.readingsStand { s with register := { s.register with mode := .closed } } := readingsStand_refl s
  generalize ({ s with register := { s.register with mode := .closed } } : State) = u at hmode ⊢
  induction ds generalizing u with
  | nil => exact hmode
  | cons d ds ih =>
    refine ih _ (hmode.trans ?_)
    dsimp only
    split
    · exact readingsStand_deckChange _ _ _ u
    · exact readingsStand_refl u

/-- The close of an event lets the readings stand, whether or not it closes the yard. -/
theorem readingsStand_finish (m : YardMode) (s : State) : s.readingsStand (finish m s) := by
  have hclose : s.readingsStand (autoClose s) := by
    unfold autoClose
    split
    · exact readingsStand_becomeClosed s
    · exact readingsStand_refl s
  have ⟨hchannels, _⟩ := finish_parts m s _ rfl
  exact hclose.trans (readingsStand_of_channels hchannels)

/-! ### Samples -/

/-- The part once a deck has formed a sample, before the capture unit looks at it (R15 to R24, R37, R38). -/
def State.sampled (s : State) (d : DeckId) : State :=
  { s with
    decks := setAt s.decks d
      (if s.isEmpty d then ((s.deck d).sample (s.members d)).zeroStep else (s.deck d).sample (s.members d))
    channels := mapMembers d (fun ch => { ch with arrival := false }) s.channels }

/-- R15: the conditions of a sample: the deck's state, a member, and every arrival mark set. -/
def State.sampleDue (s : State) (d : DeckId) : Prop :=
  (s.deck d).state.sampling = true ∧ s.members d ≠ [] ∧ ∀ ch ∈ s.members d, ch.arrival = true

theorem sampleIfReady_due {s : State} {d : DeckId} (h : s.sampleDue d) :
    sampleIfReady d s = examineSample d (s.deck d).zeroLimit (s.sampled d) := by
  obtain ⟨hstate, hmember, hmarks⟩ := h
  unfold sampleIfReady
  dsimp only
  rw [if_pos (by simpa [hstate, hmember] using hmarks)]
  rfl

theorem sampleIfReady_not_due {s : State} {d : DeckId} (h : ¬s.sampleDue d) : sampleIfReady d s = s := by
  unfold sampleIfReady
  dsimp only
  rw [if_neg]
  simpa [State.sampleDue, and_assoc] using h

theorem readingsStand_sampleIfReady (d : DeckId) (s : State) : s.readingsStand (sampleIfReady d s) := by
  by_cases h : s.sampleDue d
  · rw [sampleIfReady_due h]
    have ⟨_, hchannels, _⟩ := examineSample_frame d (s.deck d).zeroLimit (s.sampled d)
    exact readingsStand_of_mapMembers hchannels (fun _ => ⟨rfl, rfl, .inl rfl, .inl rfl⟩)
  · rw [sampleIfReady_not_due h]
    exact readingsStand_refl s

/-- A member whose arrival mark is not set holds the sample back. -/
theorem not_sampleDue_of_waiting {s : State} {d : DeckId} {c : ChanId} (hm : (s.chan c).memberOf d = true)
    (ha : (s.chan c).arrival = false) : ¬s.sampleDue d := by
  rintro ⟨_, _, hmarks⟩
  have harrived := hmarks _ ((mem_members s d _).mpr ⟨c, rfl, hm⟩)
  simp [ha] at harrived

/-- R15: a deck that samples has its sample once every member has its arrival mark. -/
theorem sampleDue_of_arrived {s : State} {d : DeckId} {c : ChanId} (hs : (s.deck d).state.sampling = true)
    (hm : (s.chan c).memberOf d = true) (ha : ∀ j, (s.chan j).memberOf d = true → (s.chan j).arrival = true) :
    s.sampleDue d := by
  refine ⟨hs, List.ne_nil_of_mem ((mem_members s d _).mpr ⟨c, rfl, hm⟩), fun ch hch => ?_⟩
  obtain ⟨j, rfl, hj⟩ := (mem_members s d ch).mp hch
  exact ha j hj

/-! ### What a sample holds -/

theorem sample_window (k : Deck) (ms : List Channel) :
    (k.sample ms).window = newest (2 ^ k.setup.k) (k.window ++ [deckSum ms]) := pushWindow_eq _ _ _

theorem sample_count (k : Deck) (ms : List Channel) : (k.sample ms).count = min (k.count + 1) 64 := rfl

theorem sample_current (k : Deck) (ms : List Channel) :
    (k.sample ms).current = some (weigh k.setup k.zd ms (average (k.sample ms).window)) := rfl

theorem sample_history (k : Deck) (ms : List Channel) :
    (k.sample ms).history = newest 64 (k.history ++ [average (k.sample ms).window - k.zd]) := by
  simp only [Deck.sample, pushBounded, weigh]

/-- R34. -/
theorem sample_stable_iff (k : Deck) (ms : List Channel) :
    (k.sample ms).stable = true ↔ k.setup.m ≤ (k.sample ms).count ∧
      spread (newest k.setup.m (k.sample ms).history) ≤ k.setup.b * k.setup.e * 1000 := by
  change isStable k.setup (k.sample ms).count (k.sample ms).history = true ↔ _
  simp [isStable]

/-- The results of stages 2 to 5 and the judgment of stability, which nothing after the sample touches in its event. -/
def Deck.sameStages (k k' : Deck) : Prop :=
  k'.window = k.window ∧ k'.count = k.count ∧ k'.current = k.current ∧ k'.stable = k.stable

theorem sampled_sameStages (s : State) (d : DeckId) :
    ((s.deck d).sample (s.members d)).sameStages ((s.sampled d).deck d) := by
  have hdeck : (s.sampled d).deck d = if s.isEmpty d then ((s.deck d).sample (s.members d)).zeroStep
      else (s.deck d).sample (s.members d) := get_setAt_self _ _ _
  rw [hdeck]
  split
  · obtain ⟨_, _, _, hwindow, hcount, hstable, hcurrent, _⟩ := zeroStep_frame ((s.deck d).sample (s.members d))
    exact ⟨hwindow, hcount, hcurrent, hstable⟩
  · exact ⟨rfl, rfl, rfl, rfl⟩

theorem judgeEmpty_sameStages (k : Deck) (now : Bool) : k.sameStages (k.judgeEmpty now) := by
  rw [deckJudgeEmpty_frame]
  exact ⟨rfl, rfl, rfl, rfl⟩

/-- A sample at the close of its event: its results stand, and the arrival marks of the deck are cleared. -/
theorem finish_sampled (m : YardMode) (zl : Bool) {s : State} (d : DeckId) (hc : s.closingHolds) :
    ((s.deck d).sample (s.members d)).sameStages ((finish m (examineSample d zl (s.sampled d))).deck d) ∧
      (finish m (examineSample d zl (s.sampled d))).channels =
        mapMembers d (fun ch => { ch with arrival := false }) s.channels := by
  obtain ⟨hdecks, hchannels, hsize⟩ := examineSample_frame d zl (s.sampled d)
  have hclosing : (examineSample d zl (s.sampled d)).closingHolds := closingHolds_of_sameSize hsize hc
  obtain ⟨hchannels', _, _, _, _, hdeck', _⟩ := finish_frame m _ hclosing
  have hdeck : (examineSample d zl (s.sampled d)).deck d = (s.sampled d).deck d := by unfold State.deck; rw [hdecks]
  refine ⟨?_, hchannels'.trans hchannels⟩
  obtain ⟨hw, hn, hcur, hst⟩ := sampled_sameStages s d
  obtain ⟨hw', hn', hcur', hst'⟩ := judgeEmpty_sameStages ((s.sampled d).deck d)
    ((examineSample d zl (s.sampled d)).isEmpty d)
  rw [hdeck', hdeck]
  exact ⟨hw'.trans hw, hn'.trans hn, hcur'.trans hcur, hst'.trans hst⟩

/-! ### Readings -/

theorem memberOf_iff (ch : Channel) (d : DeckId) : ch.memberOf d = true ↔ ch.cal.deck = some d := by
  simp [Channel.memberOf]

/-- R5, R15: the members of a sampling deck are supervised. -/
theorem supervised_of_sampling {s : State} {ch : Channel} {d : DeckId} (hm : ch.memberOf d = true)
    (hs : (s.deck d).state.sampling = true) : s.supervised ch = true := by
  have hexcited : (s.deck d).state.excited = true := by
    revert hs
    cases (s.deck d).state <;> decide
  simpa [State.supervised, (memberOf_iff ch d).mp hm] using hexcited

theorem exec_cellReading (c : ChanId) (raw : BitVec 24) (checkOk : Bool) (s : State) :
    exec (.cellReading c raw checkOk) s = yardEvent (fun _ => checkOk) (takeReading c raw.toInt) s := rfl

theorem exec_cellReading_wrong {s : State} (hu : s.up = true) (c : ChanId) (raw : BitVec 24) :
    exec (.cellReading c raw false) s = .next s := by
  simp [exec_cellReading, yardEvent, whenUp, hu]

theorem exec_cellReading_right {s : State} (hu : s.up = true) (c : ChanId) (raw : BitVec 24) :
    exec (.cellReading c raw true) s = .next (finish s.register.mode (takeReading c raw.toInt s)) :=
  (exec_cellReading c raw true s).trans (yardEvent_acts _ _ s hu rfl)

/-- The part once a channel has taken a reading, before its deck reacts (R2). -/
def State.accepted (s : State) (c : ChanId) (raw : Int) : State :=
  s.setChan c ((s.chan c).accept (s.supervised (s.chan c)) raw)

/-- What a reading sets of its channel stands under all that follows it, and so do the readings of the others. -/
theorem accepted_stands {s t : State} {c : ChanId} {raw : Int} (h : (s.accepted c raw).readingsStand t) :
    (t.chan c).raw = some raw ∧ (t.chan c).saturation = saturationOf raw ∧ (t.chan c).missed = 0 ∧
      (t.chan c).lost = false ∧
      ∀ j, j ≠ c → (t.chan j).raw = (s.chan j).raw ∧ (t.chan j).saturation = (s.chan j).saturation := by
  obtain ⟨hraw, hsat, hmissed, hlost⟩ := h c
  simp only [State.accepted, setChan_chan_self, Channel.accept, or_self] at hraw hsat hmissed hlost
  refine ⟨hraw, hsat, hmissed, hlost, fun j hj => ?_⟩
  have hself : (s.accepted c raw).chan j = s.chan j := setChan_chan_ne s _ hj
  exact ⟨hself ▸ (h j).raw, hself ▸ (h j).saturation⟩

theorem readingsStand_takeReading (c : ChanId) (raw : Int) (s : State) :
    (s.accepted c raw).readingsStand (takeReading c raw s) := by
  unfold takeReading
  dsimp only
  split
  · exact readingsStand_refl _
  · rename_i d _
    refine State.readingsStand.trans ?_ (readingsStand_sampleIfReady d _)
    split
    · exact readingsStand_leaveFault d _
    · exact readingsStand_refl _

/-- A reading that ends no loss, and leaves some member of its sampling deck waiting, changes its channel alone. -/
theorem takeReading_alone {s : State} {c : ChanId} {raw : Int} (hl : (s.chan c).lost = false)
    (hw : ∀ d, (s.chan c).cal.deck = some d → (s.deck d).state.sampling = true →
      ∃ j, j ≠ c ∧ (s.chan j).cal.deck = some d ∧ (s.chan j).arrival = false) :
    takeReading c raw s = s.accepted c raw := by
  unfold takeReading
  dsimp only
  split
  · rfl
  · rename_i d hd
    rw [hl, if_neg Bool.false_ne_true]
    change sampleIfReady d (s.accepted c raw) = s.accepted c raw
    refine sampleIfReady_not_due (fun hdue => ?_)
    obtain ⟨j, hj, hjd, hja⟩ := hw d hd hdue.1
    have hself : (s.accepted c raw).chan j = s.chan j := setChan_chan_ne s _ hj
    exact not_sampleDue_of_waiting (c := j) (by rw [hself, memberOf_iff, hjd]) (by rw [hself, hja]) hdue

/-- R2, R7: what a reading does to the arrival mark and the raw history, by whether the channel is supervised. -/
theorem accept_history (ch : Channel) (raw : Int) :
    (ch.accept true raw).arrival = true ∧ (ch.accept true raw).history = newest 32 (ch.history ++ [raw]) ∧
      (ch.accept false raw).arrival = ch.arrival ∧ (ch.accept false raw).history = ch.history := by
  simp [Channel.accept, pushBounded]

/-- Settles O3: a reading accepted stands through its event; where it changes its channel alone, so does the close. -/
theorem readingSetsItsChannel : Obligations.ReadingSetsItsChannel := by
  intro s c raw hu
  refine ⟨exec_cellReading_wrong hu c raw, _, exec_cellReading_right hu c raw, ?_⟩
  have hstand := (readingsStand_takeReading c raw.toInt s).trans (readingsStand_finish s.register.mode _)
  obtain ⟨hraw, hsat, hmissed, hlost, hothers⟩ := accepted_stands hstand
  refine ⟨hraw, hsat, hmissed, hlost, hothers, fun hc hl hw => ?_⟩
  rw [takeReading_alone hl hw]
  have ⟨hchannels, _⟩ := finish_frame s.register.mode (s.accepted c raw.toInt) hc
  have hchan : (finish s.register.mode (s.accepted c raw.toInt)).chan c =
      (s.chan c).accept (s.supervised (s.chan c)) raw.toInt := by
    unfold State.chan
    rw [hchannels]
    exact setChan_chan_self s c _
  obtain ⟨hmark, hhistory, hmark', hhistory'⟩ := accept_history (s.chan c) raw.toInt
  rw [hchan]
  refine ⟨fun hs => ?_, fun hs => ?_⟩ <;> rw [hs]
  · exact ⟨hmark, hhistory⟩
  · exact ⟨hmark', hhistory'⟩

/-- R15: the reading that sets the last arrival mark of a sampling deck completes its sample. -/
theorem takeReading_completes {s : State} {c : ChanId} {d : DeckId} (raw : Int) (hm : (s.chan c).memberOf d = true)
    (hs : (s.deck d).state.sampling = true)
    (ha : ∀ j, j ≠ c → (s.chan j).memberOf d = true → (s.chan j).arrival = true) :
    takeReading c raw s = examineSample d (s.deck d).zeroLimit
      ((s.setChan c ((s.chan c).accept true raw)).sampled d) := by
  have hdeck := (memberOf_iff _ d).mp hm
  have hdue : (s.setChan c ((s.chan c).accept true raw)).sampleDue d := by
    refine sampleDue_of_arrived (c := c) hs (by rw [setChan_chan_self]; exact hm) (fun j hj => ?_)
    by_cases hjc : j = c
    · rw [hjc, setChan_chan_self]
      exact (accept_history _ _).1
    · rw [setChan_chan_ne s _ hjc] at hj ⊢
      exact ha j hjc hj
  have hfault : (s.deck d).state ≠ .fault := by
    intro e
    rw [e] at hs
    cases hs
  unfold takeReading
  dsimp only
  rw [supervised_of_sampling hm hs, hdeck]
  simp only [leaveFault, setChan_deck, hfault, false_and, if_false, ite_self]
  exact sampleIfReady_due hdue

/-- Settles O4: the reading completes the sample, whose stages stand at the close of the event; what is left
once they are rewritten is the rules' formulas, the same by definition. -/
theorem sampleRunsTheStages : Obligations.SampleRunsTheStages := by
  intro s c raw d hu hc hm hs ha
  dsimp only
  refine ⟨_, exec_cellReading_right hu c raw, ?_⟩
  rw [takeReading_completes raw.toInt hm hs ha]
  generalize hafter : s.setChan c ((s.chan c).accept true raw.toInt) = u
  have hdeck : u.deck d = s.deck d := by rw [← hafter]; rfl
  have hclosing : u.closingHolds := by rw [← hafter]; exact hc
  obtain ⟨⟨hwindow, hcount, hcurrent, hstable⟩, hchannels⟩ :=
    finish_sampled s.register.mode (s.deck d).zeroLimit d hclosing
  rw [hwindow, hcount, hcurrent, hstable, sample_stable_iff, sample_current, sample_history, sample_count,
    sample_window, hdeck]
  refine ⟨rfl, rfl, rfl, Iff.rfl, fun j hj => ?_⟩
  unfold State.chan at hj ⊢
  rw [hchannels, get_mapMembers] at hj ⊢
  split at hj
  · rw [if_pos ‹_›]
  · contradiction

end Sys2Proof.Machine
end

section
/-! PROOF. The end of a sampling period (R3, R4, R33): the channels it judges, and the decks of those just LOST. -/

namespace Sys2Proof.Machine

/-! ### The channels judged -/

/-- The part with the period judged on every channel and the next one started, before any deck is told (R3, R4). -/
def State.periodJudged (s : State) : State :=
  { s with
    period := some (periodLength s.store.yardSetup.p)
    channels := s.channels.map (fun ch => ch.endPeriod (missedPeriod s ch)) }

theorem periodJudged_chan (s : State) (c : ChanId) :
    s.periodJudged.chan c = (s.chan c).endPeriod (missedPeriod s (s.chan c)) := get_map _ _ _

theorem endPeriod_missed (ch : Channel) :
    (ch.endPeriod true).missed = min (ch.missed + 1) 3 ∧
      ((ch.endPeriod true).lost = true ↔ ch.lost = true ∨ 3 ≤ ch.missed + 1) := by
  simp [Channel.endPeriod]

theorem endPeriod_kept (ch : Channel) :
    (ch.endPeriod false).missed = ch.missed ∧ (ch.endPeriod false).lost = ch.lost := ⟨rfl, rfl⟩

theorem endPeriod_frame (ch : Channel) (miss : Bool) :
    (ch.endPeriod miss).answered = false ∧ (ch.endPeriod miss).raw = ch.raw ∧ (ch.endPeriod miss).cal = ch.cal := by
  cases miss <;> exact ⟨rfl, rfl, rfl⟩

/-! ### The decks told -/

/-- R33, R60: a deck in FAULT as it enters: no current weight, its capture unit IDLE. -/
def State.faulted (s : State) (d : DeckId) : Prop :=
  (s.deck d).state = .fault ∧ (s.deck d).current = none ∧ (s.unit d).cap = none

theorem deckChange_faulted (d : DeckId) (cause : WakeCause) (s : State) : (deckChange d .fault cause s).faulted d := by
  obtain ⟨hdeck, _⟩ := deckChange_frame d .fault cause s
  refine ⟨?_, ?_, (endCapture_frame d (.failed .cellFault) _).1⟩ <;>
  · rw [hdeck]
    rfl

/-- R5, R23: a deck that goes from sampling to FAULT keeps its members supervised and their marks. -/
theorem onDeckChange_sampling_fault {old : DeckState} (h : old.sampling = true) (ch : Channel) :
    ch.onDeckChange old .fault = ch := by
  cases old with
  | warming | active | service => rfl
  | unused | sleep | fault => cases h

theorem enterFault_channels (d : DeckId) (s : State) : (enterFault d s).channels = s.channels := by
  unfold enterFault
  split
  · rename_i hs
    obtain ⟨_, _, hchannels, _⟩ := deckChange_frame d .fault .none s
    rw [hchannels]
    refine bank_ext _ _ (fun c => ?_)
    rw [get_mapMembers, onDeckChange_sampling_fault hs, ite_self]
  · rfl

theorem enterFault_period (d : DeckId) (s : State) : (enterFault d s).period = s.period := by
  unfold enterFault
  split
  · obtain ⟨_, _, _, hperiod, _⟩ := deckChange_frame d .fault .none s
    exact hperiod
  · rfl

/-- A deck told of a lost member is in FAULT then, if it was sampling or in FAULT before. -/
theorem enterFault_faulted {d : DeckId} {s : State} (h : (s.deck d).state.sampling = true ∨ s.faulted d) :
    (enterFault d s).faulted d := by
  unfold enterFault
  split
  · exact deckChange_faulted d .none s
  · rename_i hs
    exact h.resolve_left hs

theorem enterFault_other {d e : DeckId} (s : State) (h : e ≠ d) :
    (enterFault d s).deck e = s.deck e ∧ (enterFault d s).unit e = s.unit e := by
  unfold enterFault
  split
  · obtain ⟨_, hdeck, _, _, _, _, hunit⟩ := deckChange_frame d .fault .none s
    exact ⟨hdeck e h, hunit e h⟩
  · exact ⟨rfl, rfl⟩

/-- R33: the decks of channels just LOST are told in turn. -/
def State.tellAllLost (s : State) (cs : List ChanId) : State := cs.foldl (fun s c => tellLost c s) s

theorem endPeriod_eq (s : State) :
    endPeriod s = s.periodJudged.tellAllLost (allChans.filter (fun c => becomesLost s (s.chan c))) := rfl

/-- The telling of one lost channel leaves channels, period, and the yard's mode and number of visits. -/
theorem tellLost_frame (c : ChanId) (s : State) :
    (tellLost c s).channels = s.channels ∧ (tellLost c s).period = s.period ∧
      s.register.sameSize (tellLost c s).register := by
  unfold tellLost
  split
  · exact ⟨rfl, rfl, Register.sameSize.refl _⟩
  · exact ⟨enterFault_channels _ s, enterFault_period _ s, enterFault_sameSize _ s⟩

theorem tellAllLost_frame (cs : List ChanId) (s : State) :
    (s.tellAllLost cs).channels = s.channels ∧ (s.tellAllLost cs).period = s.period ∧
      s.register.sameSize (s.tellAllLost cs).register := by
  induction cs generalizing s with
  | nil => exact ⟨rfl, rfl, Register.sameSize.refl _⟩
  | cons c cs ih =>
    obtain ⟨hchannels, hperiod, hsize⟩ := tellLost_frame c s
    obtain ⟨hchannels', hperiod', hsize'⟩ := ih (tellLost c s)
    exact ⟨hchannels'.trans hchannels, hperiod'.trans hperiod, hsize.trans hsize'⟩

/-- The telling of a lost channel reaches the channel's own deck and no other. -/
theorem tellLost_deck (c : ChanId) (d : DeckId) (s : State) :
    ((s.chan c).memberOf d = true ∧ tellLost c s = enterFault d s) ∨
      (¬(s.chan c).memberOf d = true ∧ (tellLost c s).deck d = s.deck d ∧ (tellLost c s).unit d = s.unit d) := by
  rw [memberOf_iff]
  unfold tellLost
  split
  · rename_i hnone
    exact .inr ⟨by simp [hnone], rfl, rfl⟩
  · rename_i e he
    by_cases hd : d = e
    · exact .inl ⟨hd ▸ he, hd ▸ rfl⟩
    · exact .inr ⟨fun h => hd (Option.some.inj (h.symm.trans he)), enterFault_other s hd⟩

theorem tellLost_keeps_faulted {d : DeckId} (c : ChanId) {s : State} (h : s.faulted d) : (tellLost c s).faulted d := by
  rcases tellLost_deck c d s with ⟨_, e⟩ | ⟨_, hdeck, hunit⟩
  · exact e ▸ enterFault_faulted (.inr h)
  · unfold State.faulted
    rwa [hdeck, hunit]

theorem tellAllLost_keeps_faulted {d : DeckId} (cs : List ChanId) {s : State} (h : s.faulted d) :
    (s.tellAllLost cs).faulted d := by
  induction cs generalizing s with
  | nil => exact h
  | cons c cs ih => exact ih (tellLost_keeps_faulted c h)

/-- R33: a sampling deck with a lost member among those told ends in FAULT. -/
theorem tellAllLost_faulted {d : DeckId} {c : ChanId} {cs : List ChanId} {s : State} (hc : c ∈ cs)
    (hm : (s.chan c).memberOf d = true) (hs : (s.deck d).state.sampling = true) : (s.tellAllLost cs).faulted d := by
  induction cs generalizing s with
  | nil => cases hc
  | cons a cs ih =>
    change ((tellLost a s).tellAllLost cs).faulted d
    rcases tellLost_deck a d s with ⟨_, e⟩ | ⟨ha, hdeck, _⟩
    · exact tellAllLost_keeps_faulted cs (e ▸ enterFault_faulted (.inl hs))
    · have hrest : c ∈ cs := (List.mem_cons.mp hc).resolve_left (fun e => ha (e ▸ hm))
      have hchan : (tellLost a s).chan c = s.chan c := by unfold State.chan; rw [(tellLost_frame a s).1]
      exact ih hrest (hchan ▸ hm) (hdeck ▸ hs)

/-! ### The event -/

theorem exec_periodTimerExpiry (s : State) :
    exec .periodTimerExpiry s = yardEvent (fun s => s.period.isSome) endPeriod s := rfl

theorem exec_periodTimerExpiry_running {s : State} (hu : s.up = true) (hp : s.period.isSome = true) :
    exec .periodTimerExpiry s = .next (finish s.register.mode (endPeriod s)) :=
  (exec_periodTimerExpiry s).trans (yardEvent_acts _ _ s hu hp)

/-- The expiry at the close of its event: channels and period as judged, the decks and units as told. -/
theorem finish_endPeriod (m : YardMode) {s : State} (hc : s.closingHolds) :
    (finish m (endPeriod s)).channels = s.periodJudged.channels ∧
      (finish m (endPeriod s)).period = some (1250 * 2 ^ s.store.yardSetup.p) ∧
      ∀ d, (endPeriod s).faulted d → (finish m (endPeriod s)).faulted d := by
  obtain ⟨hchannels, hperiod, hsize⟩ :=
    tellAllLost_frame (allChans.filter (fun c => becomesLost s (s.chan c))) s.periodJudged
  rw [← endPeriod_eq] at hchannels hperiod hsize
  have hclosing : (endPeriod s).closingHolds := closingHolds_of_sameSize hsize hc
  obtain ⟨hchannels', hperiod', hunits', _, _, hdeck', _⟩ := finish_frame m _ hclosing
  refine ⟨hchannels'.trans hchannels, hperiod'.trans hperiod, fun d hd => ?_⟩
  have hunit : (finish m (endPeriod s)).unit d = (endPeriod s).unit d := by unfold State.unit; rw [hunits']
  unfold State.faulted
  rwa [hdeck', hunit, deckJudgeEmpty_frame]

/-- Settles O7: the period is judged on every channel, and every deck with a member just LOST is told. -/
theorem periodJudgesMissedReadings : Obligations.PeriodJudgesMissedReadings := by
  intro s hu hp hc
  refine ⟨_, exec_periodTimerExpiry_running hu hp, ?_⟩
  obtain ⟨hchannels, hperiod, hfault⟩ := finish_endPeriod s.register.mode hc
  refine ⟨hperiod, fun c => ?_, fun c d hm hs ha hl h3 => hfault d ?_⟩
  · have hchan : (finish s.register.mode (endPeriod s)).chan c =
        (s.chan c).endPeriod (missedPeriod s (s.chan c)) := by
      rw [← periodJudged_chan]
      unfold State.chan
      rw [hchannels]
    obtain ⟨hanswered, hraw, _⟩ := endPeriod_frame (s.chan c) (missedPeriod s (s.chan c))
    rw [hchan]
    refine ⟨hanswered, hraw, fun hsup ha => ?_, fun hkept => ?_⟩
    · have hmiss : missedPeriod s (s.chan c) = true := by simp [missedPeriod, hsup, ha]
      rw [hmiss]
      exact endPeriod_missed _
    · have hmiss : missedPeriod s (s.chan c) = false := by
        rcases hkept with h | h <;> simp [missedPeriod, h]
      rw [hmiss]
      exact endPeriod_kept _
  · rw [endPeriod_eq]
    have hlost : becomesLost s (s.chan c) = true := by
      simpa [becomesLost, missedPeriod, supervised_of_sampling hm hs, ha, hl] using h3
    refine tellAllLost_faulted (c := c) (List.mem_filter.mpr ⟨List.mem_finRange c, hlost⟩) ?_ hs
    obtain ⟨_, _, hcal⟩ := endPeriod_frame (s.chan c) (missedPeriod s (s.chan c))
    rwa [periodJudged_chan, memberOf_iff, hcal, ← memberOf_iff]

end Sys2Proof.Machine
end

section
/-! PROOF. A deck at the close of an event (R35, R47, R48, R124): what the close leaves of it, whether or not the yard
closes. -/

namespace Sys2Proof.Machine

/-! ### A close that does not close the yard -/

/-- The deck is as it was but for EMPTY and the idle timer, which the close of an event judges (R35, R47). -/
def Deck.judgedFrom (k k' : Deck) : Prop := ∃ empty idle, k' = { k with empty := empty, idle := idle }

theorem judgeEmpty_judgedFrom (k : Deck) (now : Bool) : k.judgedFrom (k.judgeEmpty now) :=
  ⟨_, _, deckJudgeEmpty_frame k now⟩

theorem finish_judged (m : YardMode) {s : State} (d : DeckId) (hc : s.closingHolds) :
    (s.deck d).judgedFrom ((finish m s).deck d) := by
  obtain ⟨_, _, _, _, _, hdeck, _⟩ := finish_frame m s hc
  rw [hdeck]
  exact judgeEmpty_judgedFrom _ _

/-- R47: EMPTY ends, or does not stand, on a deck whose idle timer does not run. -/
theorem judgeEmpty_false {k : Deck} (h : k.idle = none) : k.judgeEmpty false = { k with empty := false } := by
  unfold Deck.judgeEmpty
  split
  · rename_i he
    rw [he]
  · rw [h]
    rfl

/-! ### A close that may close the yard -/

/-- R124, R126, R48: what holds once the mode is CLOSED and is kept by each deck put to sleep holds after the closing of
the yard. -/
theorem becomeClosed_keeps (P : State → Prop) {s : State}
    (h : P { s with register := { s.register with mode := .closed } })
    (hsleep : ∀ u e, P u → (u.deck e).state = .active ∨ (u.deck e).state = .warming →
      P (deckChange e .sleep .none u)) : P (becomeClosed s) := by
  unfold becomeClosed
  generalize allDecks = ds
  generalize ({ s with register := { s.register with mode := .closed } } : State) = u at h ⊢
  induction ds generalizing u with
  | nil => exact h
  | cons d ds ih =>
    refine ih _ ?_
    dsimp only
    split
    · exact hsleep u d h ‹_›
    · exact h

/-- The deck and its members are as they were. -/
def State.deckStays (s t : State) (d : DeckId) : Prop :=
  t.deck d = s.deck d ∧ ∀ c, (t.chan c).memberOf d = true → t.chan c = s.chan c

theorem State.deckStays.trans {a b c : State} {d : DeckId} (h : a.deckStays b d) (h' : b.deckStays c d) :
    a.deckStays c d := by
  obtain ⟨hdeck, hchan⟩ := h
  obtain ⟨hdeck', hchan'⟩ := h'
  exact ⟨hdeck'.trans hdeck, fun j hj => (hchan' j hj).trans (hchan j (hchan' j hj ▸ hj))⟩

/-- R9: a channel is a member of one deck at most. -/
theorem memberOf_unique {ch : Channel} {d e : DeckId} (hd : ch.memberOf d = true) (he : ch.memberOf e = true) :
    d = e := by
  rw [memberOf_iff] at hd he
  exact Option.some.inj (hd.symm.trans he)

/-- A member of a deck after a change of its members was one before, and is as the change leaves it. -/
theorem chan_mapMembers {s t : State} {d : DeckId} {f : Channel → Channel} (h : t.channels = mapMembers d f s.channels)
    {c : ChanId} (hm : (t.chan c).memberOf d = true) :
    (s.chan c).memberOf d = true ∧ t.chan c = f (s.chan c) := by
  have hchan : t.chan c = if (s.chan c).memberOf d then f (s.chan c) else s.chan c := by
    unfold State.chan
    rw [h, get_mapMembers]
  by_cases hs : (s.chan c).memberOf d = true
  · exact ⟨hs, hchan.trans (if_pos hs)⟩
  · rw [hchan, if_neg hs] at hm
    exact absurd hm hs

theorem deckChange_member {d : DeckId} {new : DeckState} {cause : WakeCause} {s : State} {c : ChanId}
    (hm : ((deckChange d new cause s).chan c).memberOf d = true) :
    (deckChange d new cause s).chan c = (s.chan c).onDeckChange (s.deck d).state new := by
  obtain ⟨_, _, hchannels, _⟩ := deckChange_frame d new cause s
  exact (chan_mapMembers hchannels hm).2

/-- A change of one deck leaves the others and their members. -/
theorem deckChange_deckStays {d e : DeckId} (h : d ≠ e) (new : DeckState) (cause : WakeCause) (s : State) :
    s.deckStays (deckChange e new cause s) d := by
  obtain ⟨_, hdeck, hchannels, _⟩ := deckChange_frame e new cause s
  refine ⟨hdeck d h, fun c hm => ?_⟩
  have hchan : (deckChange e new cause s).chan c =
      if (s.chan c).memberOf e then (s.chan c).onDeckChange (s.deck e).state new else s.chan c := by
    unfold State.chan
    rw [hchannels, get_mapMembers]
  rw [hchan, if_neg]
  intro he
  rw [hchan, if_pos he, memberOf_iff, (onDeckChange_frame _ _ _).1, ← memberOf_iff] at hm
  exact h (memberOf_unique hm he)

/-- R48: the closing of the yard leaves a deck that is neither ACTIVE nor WARMING. -/
theorem autoClose_deckStays {s : State} {d : DeckId} (ha : (s.deck d).state ≠ .active)
    (hw : (s.deck d).state ≠ .warming) : s.deckStays (autoClose s) d := by
  unfold autoClose
  split
  · refine becomeClosed_keeps (s.deckStays · d) ⟨rfl, fun _ _ => rfl⟩ (fun u e hu he => ?_)
    refine hu.trans (deckChange_deckStays (fun hde => ?_) _ _ u)
    obtain ⟨hdeck, _⟩ := hu
    rw [← hde, hdeck] at he
    exact he.elim ha hw
  · exact ⟨rfl, fun _ _ => rfl⟩

/-- A deck that is neither ACTIVE nor WARMING, at the close of an event: it is not EMPTY, its members stay. -/
theorem finish_resting (m : YardMode) {s : State} {d : DeckId} (ha : (s.deck d).state ≠ .active)
    (hw : (s.deck d).state ≠ .warming) :
    (finish m s).deck d = (s.deck d).judgeEmpty false ∧
      ∀ c, ((finish m s).chan c).memberOf d = true → (finish m s).chan c = s.chan c := by
  obtain ⟨hchannels, _, _, _, _, hdeck, _⟩ := finish_parts m s _ rfl
  obtain ⟨hstays, hmembers⟩ := autoClose_deckStays ha hw
  have hchan : ∀ c, (finish m s).chan c = (autoClose s).chan c := fun c => by unfold State.chan; rw [hchannels]
  have hempty : (autoClose s).isEmpty d = false := by simp [State.isEmpty, hstays, ha]
  refine ⟨by rw [hdeck, hstays, hempty], fun c hc => ?_⟩
  rw [hchan] at hc ⊢
  exact hmembers c hc

/-- A deck put to sleep leaves an IDLE unit IDLE, its own too. -/
theorem deckChange_sleep_idle_unit {d : DeckId} (e : DeckId) (cause : WakeCause) {s : State} (h : (s.unit d).cap = none) :
    (deckChange e .sleep cause s).unit d = s.unit d := by
  by_cases hde : d = e
  · subst hde
    obtain ⟨_, _, _, _, _, _, hidle, _⟩ := endCapture_frame d (.failed .aborted) (enterDeck d .sleep cause s)
    change (endCapture d (.failed .aborted) (enterDeck d .sleep cause s)).unit d = _
    rw [hidle h]
    rfl
  · obtain ⟨_, _, _, _, _, _, hunit⟩ := deckChange_frame e .sleep cause s
    exact hunit d hde

/-- An IDLE unit stays as it is through the close of an event. -/
theorem finish_idle_unit (m : YardMode) {s : State} {d : DeckId} (h : (s.unit d).cap = none) :
    (finish m s).unit d = s.unit d := by
  have hclose : (autoClose s).unit d = s.unit d := by
    unfold autoClose
    split
    · refine becomeClosed_keeps (fun u => u.unit d = s.unit d) rfl (fun u e hu _ => ?_)
      exact (deckChange_sleep_idle_unit e .none (hu ▸ h)).trans hu
    · rfl
  obtain ⟨_, _, hunits, _⟩ := finish_parts m s _ rfl
  rw [← hclose]
  unfold State.unit
  rw [hunits]

end Sys2Proof.Machine
end

section
/-! PROOF. The zero at a sample (R34, R37, R38), and the return of the last LOST member (R23, R33). -/

namespace Sys2Proof.Machine

/-! ### What the zero does at a sample -/

/-- R37, R38: without a STABLE judgment the zero stays. -/
theorem zeroStep_unstable {k : Deck} (h : k.stable = false) : k.zeroStep = k := by
  unfold Deck.zeroStep
  split
  · rfl
  · rw [if_neg (by simp [h])]

/-- R38: the armed power-up zero acts once. -/
theorem zeroStep_powerUp {k : Deck} {w : CurrentWeight} (hw : k.current = some w) (hs : k.stable = true)
    (hp : k.powerUpZero = true) :
    k.zeroStep = if w.a.natAbs ≤ k.setup.zeroLimit then { k.moveZero w.a false with powerUpZero := false }
      else { k with zeroLimit := true, powerUpZero := false } := by
  simp [Deck.zeroStep, hw, hs, hp]

/-- R37: with the power-up zero not armed, a tracking step within its band. -/
theorem zeroStep_tracking {k : Deck} {w : CurrentWeight} (hw : k.current = some w) (hs : k.stable = true)
    (hp : k.powerUpZero = false) :
    k.zeroStep = if w.wf.natAbs ≤ k.setup.trackBand then
        k.moveZero (clampTo k.setup.zeroLimit (k.zd + w.wf))
          (decide (clampTo k.setup.zeroLimit (k.zd + w.wf) ≠ k.zd + w.wf))
      else k := by
  simp [Deck.zeroStep, hw, hs, hp]

/-- A deck with its sample taken and the zero moved, EMPTY or not (R34, R37, R38). -/
def Deck.sampledZero (k : Deck) (isEmpty : Bool) (ms : List Channel) : Deck :=
  if isEmpty then (k.sample ms).zeroStep else k.sample ms

theorem sampled_deck (s : State) (d : DeckId) :
    (s.sampled d).deck d = (s.deck d).sampledZero (s.isEmpty d) (s.members d) := get_setAt_self _ _ _

theorem sampledZero_stable (k : Deck) (b : Bool) (ms : List Channel) :
    (k.sampledZero b ms).stable = (k.sample ms).stable := by
  obtain ⟨_, _, _, _, _, hstable, _⟩ := zeroStep_frame (k.sample ms)
  cases b with
  | true => exact hstable
  | false => rfl

/-- R34: the new W_f joins the history, which moves with Zd. -/
theorem sampledZero_history (k : Deck) (b : Bool) (ms : List Channel) :
    (k.sampledZero b ms).history = (newest 64 (k.history ++ [average (k.sample ms).window - k.zd])).map
      (fun w => w - ((k.sampledZero b ms).zd - k.zd)) := by
  obtain ⟨_, _, _, _, _, _, _, _, _, hhistory⟩ := zeroStep_frame (k.sample ms)
  rw [← sample_history]
  cases b with
  | true => exact hhistory
  | false => simp [Deck.sampledZero, Deck.sample]

/-- R37, R38: off an EMPTY STABLE deck the zero stays. -/
theorem sampledZero_kept {k : Deck} {b : Bool} {ms : List Channel}
    (h : ¬(b = true ∧ (k.sampledZero b ms).stable = true)) :
    (k.sampledZero b ms).zd = k.zd ∧ (k.sampledZero b ms).zeroLimit = k.zeroLimit ∧
      (k.sampledZero b ms).powerUpZero = k.powerUpZero := by
  have hsame : k.sampledZero b ms = k.sample ms := by
    cases b with
    | false => rfl
    | true =>
      rw [sampledZero_stable] at h
      exact zeroStep_unstable (by simpa using h)
  rw [hsame]
  exact ⟨rfl, rfl, rfl⟩

section
variable {k : Deck} {ms : List Channel} {a : Int} (ha : average (k.sample ms).window = a)
  (hs : (k.sampledZero true ms).stable = true)
include ha hs

/-- R38, on a deck that is EMPTY and STABLE at the sample. -/
theorem sampledZero_powerUp (hp : k.powerUpZero = true) :
    (k.sampledZero true ms).powerUpZero = false ∧
      (-k.setup.zeroLimit ≤ a ∧ a ≤ k.setup.zeroLimit →
        (k.sampledZero true ms).zd = a ∧ (k.sampledZero true ms).zeroLimit = false) ∧
      (¬(-k.setup.zeroLimit ≤ a ∧ a ≤ k.setup.zeroLimit) →
        (k.sampledZero true ms).zd = k.zd ∧ (k.sampledZero true ms).zeroLimit = true) := by
  rw [sampledZero_stable] at hs
  have hstep := zeroStep_powerUp (sample_current k ms) hs hp
  obtain ⟨hwa, _⟩ := weigh_spec k.setup k.zd ms a
  obtain ⟨hsetup, _⟩ := sample_frame k ms
  have hband : (a.natAbs : Int) ≤ k.setup.zeroLimit ↔ -k.setup.zeroLimit ≤ a ∧ a ≤ k.setup.zeroLimit := by omega
  rw [ha, hwa, hsetup] at hstep
  rw [show k.sampledZero true ms = _ from hstep, ← hband]
  split
  · rename_i hin
    exact ⟨rfl, fun _ => ⟨rfl, rfl⟩, fun hout => absurd hin hout⟩
  · rename_i hout
    exact ⟨rfl, fun hin => absurd hin hout, fun _ => ⟨rfl, rfl⟩⟩

/-- R37, on a deck that is EMPTY and STABLE at the sample. -/
theorem sampledZero_tracking (hp : k.powerUpZero = false) :
    (k.sampledZero true ms).powerUpZero = false ∧
      (((a - k.zd).natAbs ≤ k.setup.e * 500 →
        (a > k.setup.zeroLimit →
          (k.sampledZero true ms).zd = k.setup.zeroLimit ∧ (k.sampledZero true ms).zeroLimit = true) ∧
        (a < -k.setup.zeroLimit →
          (k.sampledZero true ms).zd = -k.setup.zeroLimit ∧ (k.sampledZero true ms).zeroLimit = true) ∧
        (-k.setup.zeroLimit ≤ a ∧ a ≤ k.setup.zeroLimit →
          (k.sampledZero true ms).zd = a ∧ (k.sampledZero true ms).zeroLimit = false)) ∧
      (k.setup.e * 500 < (a - k.zd).natAbs →
        (k.sampledZero true ms).zd = k.zd ∧ (k.sampledZero true ms).zeroLimit = k.zeroLimit)) := by
  rw [sampledZero_stable] at hs
  have hstep := zeroStep_tracking (sample_current k ms) hs hp
  obtain ⟨_, hwf, _⟩ := weigh_spec k.setup k.zd ms a
  obtain ⟨hsetup, _, _, _, hzd, _⟩ := sample_frame k ms
  have hband : ((a - k.zd).natAbs : Int) ≤ k.setup.trackBand ↔ (a - k.zd).natAbs ≤ k.setup.e * 500 := by
    unfold DeckSetup.trackBand
    omega
  rw [ha, hwf, hsetup, hzd, add_sub_cancel] at hstep
  have hlimit : 0 ≤ k.setup.zeroLimit := by unfold DeckSetup.zeroLimit; omega
  obtain ⟨_, hin, hover, hunder⟩ := clampTo_spec k.setup.zeroLimit a hlimit
  rw [show k.sampledZero true ms = _ from hstep]
  split
  · rename_i hwithin
    refine ⟨hp, fun _ => ⟨fun h => ?_, fun h => ?_, fun ⟨hlow, hhigh⟩ => ?_⟩,
      fun hout => absurd (hband.mp hwithin) (by omega)⟩
    · exact ⟨hover h, decide_eq_true (by omega)⟩
    · exact ⟨hunder h, decide_eq_true (by omega)⟩
    · exact ⟨hin hlow hhigh, decide_eq_false (not_not_intro (hin hlow hhigh))⟩
  · rename_i hbeyond
    exact ⟨hp, fun hin => absurd (hband.mpr hin) hbeyond, fun _ => ⟨rfl, rfl⟩⟩

end

/-- A deck with its sample taken, at the close of the event. -/
theorem finish_sampledZero (m : YardMode) (zl : Bool) {s : State} (d : DeckId) (hc : s.closingHolds) :
    ((s.deck d).sampledZero (s.isEmpty d) (s.members d)).judgedFrom
      ((finish m (examineSample d zl (s.sampled d))).deck d) := by
  obtain ⟨hdecks, _, hsize⟩ := examineSample_frame d zl (s.sampled d)
  have hclosing : (examineSample d zl (s.sampled d)).closingHolds := closingHolds_of_sameSize hsize hc
  have hjudged := finish_judged m d hclosing
  unfold State.deck at hjudged
  rw [hdecks] at hjudged
  exact sampled_deck s d ▸ hjudged

/-- Settles O5: the reading completes the sample, and the zero moved with it stands at the close of the event. -/
theorem sampleMovesTheZero : Obligations.SampleMovesTheZero := by
  intro s c raw d hu hc hm hs ha
  dsimp only
  refine ⟨_, exec_cellReading_right hu c raw, ?_⟩
  rw [takeReading_completes raw.toInt hm hs ha]
  generalize hafter : s.setChan c ((s.chan c).accept true raw.toInt) = u
  have hdeck : u.deck d = s.deck d := by rw [← hafter]; rfl
  have hempty : u.isEmpty d = s.isEmpty d := by rw [← hafter]; rfl
  have hjudged := finish_sampledZero s.register.mode (s.deck d).zeroLimit d (s := u) (by rw [← hafter]; exact hc)
  rw [hdeck, hempty] at hjudged
  obtain ⟨empty, idle, hjudged⟩ := hjudged
  rw [hjudged]
  have hwindow := sample_window (s.deck d) (u.members d)
  refine ⟨?_, sampledZero_kept, fun he hst hp => ?_, fun he hst hp => ?_⟩
  · rw [← hwindow]
    exact sampledZero_history _ _ _
  · rw [he] at hst ⊢
    rw [← hwindow]
    exact sampledZero_powerUp rfl hst hp
  · rw [he] at hst ⊢
    rw [← hwindow]
    exact sampledZero_tracking rfl hst hp

/-! ### The return of the last LOST member -/

/-- R29: a deck enters SERVICE or ACTIVE from another state than WARMING with the power-up zero disarmed. -/
theorem entered_disarmed {k : Deck} {new : DeckState} (cause : WakeCause) (h : k.state ≠ .warming) :
    (k.entered new cause).powerUpZero = false := by
  unfold Deck.entered
  cases new with
  | active => simpa using h
  | unused | sleep | warming | fault | service => rfl

/-- R33: the state a deck takes when its last LOST member has returned. -/
def Deck.returnState (k : Deck) : DeckState := if k.service then .service else .active

/-- R5, R23: a member of a deck that leaves FAULT by a return stays supervised, and is emptied with the window. -/
theorem onDeckChange_return (k : Deck) (ch : Channel) : ch.onDeckChange .fault k.returnState = ch.emptied := by
  unfold Deck.returnState
  split <;> rfl

theorem leaveFault_return {s : State} {d : DeckId} (hf : (s.deck d).state = .fault)
    (hl : ∀ c, (s.chan c).memberOf d = true → (s.chan c).lost = false) :
    leaveFault d s = deckChange d (s.deck d).returnState .none s := by
  unfold leaveFault
  rw [if_pos]
  · rfl
  · refine ⟨hf, List.all_eq_true.mpr (fun ch hch => ?_)⟩
    obtain ⟨c, rfl, hm⟩ := (mem_members s d ch).mp hch
    simp [hl c hm]

/-- R33, R23: a reading of the only LOST member of a deck in FAULT takes the deck out of it, and forms no sample. -/
theorem takeReading_returns {s : State} {c : ChanId} {d : DeckId} (raw : Int) (hm : (s.chan c).memberOf d = true)
    (hf : (s.deck d).state = .fault) (hl : (s.chan c).lost = true)
    (ho : ∀ j, j ≠ c → (s.chan j).memberOf d = true → (s.chan j).lost = false) :
    takeReading c raw s = deckChange d (s.deck d).returnState .none (s.accepted c raw) := by
  have hleave : leaveFault d (s.accepted c raw) = deckChange d (s.deck d).returnState .none (s.accepted c raw) := by
    refine leaveFault_return hf (fun j hj => ?_)
    by_cases hjc : j = c
    · rw [hjc, State.accepted, setChan_chan_self]
      rfl
    · rw [State.accepted, setChan_chan_ne s _ hjc] at hj ⊢
      exact ho j hjc hj
  unfold takeReading
  dsimp only
  rw [(memberOf_iff _ d).mp hm, hl]
  change sampleIfReady d (leaveFault d (s.accepted c raw)) = _
  rw [hleave]
  have hcal : ((deckChange d (s.deck d).returnState .none (s.accepted c raw)).chan c).memberOf d = true := by
    rw [memberOf_iff, (yard_deckChange _ _ _ _).cal c, State.accepted, setChan_chan_self]
    exact (memberOf_iff _ d).mp hm
  refine sampleIfReady_not_due (not_sampleDue_of_waiting hcal ?_)
  rw [deckChange_member hcal]
  change (Channel.onDeckChange (s.deck d).state _ _).arrival = false
  rw [hf, onDeckChange_return]
  rfl

/-- Settles O8: the reading takes the deck out of FAULT, and the state entered stands at the close of the event. -/
theorem lastReturnEndsFault : Obligations.LastReturnEndsFault := by
  intro s c raw d hu hc hm hf hl ho
  refine ⟨_, exec_cellReading_right hu c raw, ?_⟩
  rw [takeReading_returns raw.toInt hm hf hl ho]
  generalize hafter : s.accepted c raw.toInt = u
  have hdeck : u.deck d = s.deck d := by rw [← hafter]; rfl
  have hsize := deckChange_sameSize d (s.deck d).returnState .none u
  have hclosing : (deckChange d (s.deck d).returnState .none u).closingHolds :=
    closingHolds_of_sameSize hsize (by rw [← hafter]; exact hc)
  obtain ⟨hentered, _⟩ := deckChange_frame d (s.deck d).returnState .none u
  have hjudged := finish_judged s.register.mode d hclosing
  rw [hentered, hdeck] at hjudged
  obtain ⟨hstate, _, _, _, _, _, _, _, _, _, _, _, hemptied, _⟩ :=
    entered_frame (s.deck d) (s.deck d).returnState .none
  have hempties : emptiesOn (s.deck d).state (s.deck d).returnState = true := by
    rw [hf, Deck.returnState]
    split <;> rfl
  obtain ⟨hwindow, hcount, hhistory, hcurrent⟩ := hemptied hempties
  obtain ⟨hchannels, _⟩ := finish_frame s.register.mode _ hclosing
  obtain ⟨empty, idle, hjudged⟩ := hjudged
  rw [hjudged]
  refine ⟨hstate, entered_disarmed _ (by simp [hf]), hwindow, hcount, hhistory, hcurrent, fun j hj => ?_⟩
  unfold State.chan at hj ⊢
  rw [hchannels] at hj ⊢
  change ((deckChange d (s.deck d).returnState .none u).chan j).memberOf d = true at hj
  change ((deckChange d (s.deck d).returnState .none u).chan j).arrival = false
  rw [deckChange_member hj, hdeck, hf, onDeckChange_return]
  rfl

end Sys2Proof.Machine
end

section
/-! PROOF. The ends of the warm-up timer, the idle timer and the stable timeout (R45, R47, R56, R60, R105, R115). -/

namespace Sys2Proof.Machine

/-! ### The warm-up timer -/

theorem exec_warmUpTimerExpiry_acts {s : State} {d : DeckId} (hu : s.up = true) (hw : (s.deck d).warmUp.isSome = true)
    (hs : (s.deck d).state = .warming) :
    exec (.warmUpTimerExpiry d) s = .next (finish s.register.mode (deckChange d .active .none s)) :=
  yardEvent_acts (fun s => (s.deck d).warmUp.isSome && (s.deck d).state == .warming) _ s hu (by simp [hw, hs])

/-- R29, R45: a deck that warmed up is ACTIVE with the power-up zero armed and no timer. -/
theorem entered_active_of_warming {k : Deck} (cause : WakeCause) (h : k.state = .warming) :
    (k.entered .active cause).powerUpZero = true ∧ (k.entered .active cause).warmUp = none ∧
      (k.entered .active cause).wakeCause = .none := by
  simp [Deck.entered, Deck.quiet, h, emptiesOn]

/-- R55, R56: a deck that becomes ACTIVE starts the stable timeout of a capture that has none running. -/
theorem deckChange_active_timeout {d : DeckId} (cause : WakeCause) {s : State} {c : Capture}
    (hc : (s.unit d).cap = some c) (ht : c.timeout = .notStarted) :
    ((deckChange d .active cause s).unit d).cap =
      some { c with timeout := .running s.clock.time ((s.deck d).setup.stableTimeout * 1000) } := by
  have hunit : ((enterDeck d .active cause s).unit d).cap = some c := hc
  have hsetup : ((enterDeck d .active cause s).deck d).setup = (s.deck d).setup :=
    ((yard_enterDeck d .active cause s).deckSetup d).1
  change ((startTimeout d (enterDeck d .active cause s)).unit d).cap = _
  unfold startTimeout
  rw [hunit]
  dsimp only
  rw [ht, hsetup]
  simp only [setUnit_unit_self]
  rfl

/-! ### The idle timer -/

theorem exec_idleTimerExpiry_acts {s : State} {d : DeckId} (hu : s.up = true) (hi : (s.deck d).idle.isSome = true)
    (hs : (s.deck d).state = .active) :
    exec (.idleTimerExpiry d) s = .next (finish s.register.mode (deckChange d .sleep .none s)) :=
  yardEvent_acts (fun s => (s.deck d).idle.isSome && (s.deck d).state == .active) _ s hu (by simp [hi, hs])

/-- R29, R48: a deck put to sleep has no current weight, no timer and the power-up zero disarmed. -/
theorem entered_sleep (k : Deck) (cause : WakeCause) :
    (k.entered .sleep cause).current = none ∧ (k.entered .sleep cause).warmUp = none ∧
      (k.entered .sleep cause).powerUpZero = false := ⟨rfl, rfl, rfl⟩

/-- R5: the members of an ACTIVE deck put to sleep are no longer supervised. -/
theorem onDeckChange_active_sleep (ch : Channel) : ch.onDeckChange .active .sleep = ch.unsupervise := rfl

/-! ### The stable timeout -/

theorem exec_stableTimeoutExpiry_acts {s : State} {d : DeckId} {c : Capture} {since ms : Nat} (hu : s.up = true)
    (hc : (s.unit d).cap = some c) (ht : c.timeout = .running since ms) :
    exec (.stableTimeoutExpiry d) s = .next (finish s.register.mode (endCapture d (.failed .unstable) s)) :=
  yardEvent_acts (fun s => (s.unit d).timing) _ s hu (by simp [CaptureUnit.timing, hc, ht])

/-- R66, R67: at the close of its event the end of a capture has left the unit IDLE and told the links. -/
theorem finish_endCapture (m : YardMode) {o : CapOutcome} {s : State} {d : DeckId} {c : Capture}
    (hc : (s.unit d).cap = some c) :
    (finish m (endCapture d o s)).unit d = (s.unit d).ended c o ∧
      (c.owner.kind ≠ .spot → s.tells (finish m (endCapture d o s)) (.capture d c.owner o)) ∧
      ∀ l, c.owner = .spot l → (s.link l).told ((finish m (endCapture d o s)).link l) (.capture d c.owner o) := by
  obtain ⟨hidle, _, _, _, _, _, _, hunit⟩ := endCapture_frame d o s
  obtain ⟨hall, hone⟩ := endCapture_told d o s c hc
  have hlater := (yard_finish m (endCapture d o s)).links
  refine ⟨(finish_idle_unit m hidle).trans (hunit c hc), fun hk l => ?_, fun l hl => ?_⟩
  · exact hlater.told _ l _ (fun w e => by cases e) (hall hk l)
  · exact hlater.told _ l _ (fun w e => by cases e) (hone l hl)

/-- R67: a SPOT's outcome is the last spot result, a VISIT's leaves it. -/
theorem ended_lastSpot (u : CaptureUnit) (c : Capture) (o : CapOutcome) :
    (c.owner.kind ≠ .spot → (u.ended c o).lastSpot = u.lastSpot) ∧
      ∀ l, c.owner = .spot l → (u.ended c o).lastSpot = some ⟨l, c.start, o⟩ := by
  unfold CaptureUnit.ended
  cases c.owner with
  | spot l => exact ⟨fun h => absurd rfl h, fun l' h => by cases h; rfl⟩
  | visitIn v | visitOut v => exact ⟨fun _ => rfl, fun l h => by cases h⟩

/-- A failed capture writes no record, and neither does the close of its event. -/
theorem finish_failed_records (m : YardMode) (d : DeckId) (why : CapFail) (s : State) :
    (finish m (endCapture d (.failed why) s)).journal.records = s.journal.records := by
  obtain ⟨_, hjournal⟩ := endCapture_failed d why s
  rw [finish_journal, hjournal]

/-- A yard that holds a visit is not closed by the close of an event (R124). -/
theorem closingHolds_of_find {s : State} {v : Nat} {x : Visit} (h : s.register.find v = some x) : s.closingHolds := by
  intro _ hnil
  simp [Register.find, hnil] at h

/-- The register at the close of an event in which a capture other than of a leaving vehicle ended, with a visit in the
yard. -/
theorem finish_endCapture_register (m : YardMode) (d : DeckId) {o : CapOutcome} (ho : o ≠ .failed .vehicleLeft)
    {s : State} {v : Nat} {x : Visit} (h : s.register.find v = some x) :
    (finish m (endCapture d o s)).register = (endCapture d o s).register := by
  have hclosing := closingHolds_of_sameSize (endCapture_sameSize d s ho) (closingHolds_of_find h)
  obtain ⟨_, _, _, hregister, _⟩ := finish_frame m _ hclosing
  exact hregister

/-- R105: a failed entry weighing that is not of a leaving vehicle leaves its visit where it is, with the failure. -/
theorem endCapture_visitIn_failed {s : State} {d : DeckId} {c : Capture} {v : Visit} {why : CapFail}
    (hw : why ≠ .vehicleLeft) (hc : (s.unit d).cap = some c) (ho : c.owner = .visitIn v.number)
    (hv : s.register.find v.number = some v) (hs : v.state = .weighIn) (hb : s.bound d = some v.number) :
    (endCapture d (.failed why) s).register = s.register.update v.number (fun x => x.failedIn why) := by
  unfold endCapture
  rw [hc]
  dsimp only
  unfold handOutcome
  rw [ho]
  dsimp only
  rw [hv]
  dsimp only
  rw [if_pos ⟨hs, hb⟩]
  cases why with
  | vehicleLeft => exact absurd rfl hw
  | _ => rfl

/-- R115: a failed exit weighing sends its visit back to ON_SITE, unbound. -/
theorem endCapture_visitOut_failed {s : State} {d : DeckId} {c : Capture} {v : Visit} (why : CapFail)
    (hc : (s.unit d).cap = some c) (ho : c.owner = .visitOut v.number)
    (hv : s.register.find v.number = some v) (hs : v.state = .weighOut) (hb : s.bound d = some v.number) :
    (endCapture d (.failed why) s).register =
      (s.register.update v.number (fun x => x.failedOut why)).unbind v.number := by
  unfold endCapture
  rw [hc]
  dsimp only
  unfold handOutcome
  rw [ho]
  dsimp only
  rw [hv]
  dsimp only
  rw [if_pos ⟨hs, hb⟩]
  rfl

/-! ### The three ends -/

theorem warmUpTimer_ends {s : State} {d : DeckId} (hu : s.up = true) (hc : s.closingHolds)
    (hw : (s.deck d).warmUp.isSome = true) (hs : (s.deck d).state = .warming) :
    ∃ t, exec (.warmUpTimerExpiry d) s = .next t ∧ (t.deck d).state = .active ∧ (t.deck d).excitation = true ∧
      (t.deck d).powerUpZero = true ∧ (t.deck d).warmUp = none ∧ (t.deck d).wakeCause = .none ∧
      (t.deck d).window = (s.deck d).window ∧ (t.deck d).zd = (s.deck d).zd ∧
      ∀ c, (s.unit d).cap = some c → c.timeout = .notStarted →
        (t.unit d).cap = some { c with timeout := .running s.clock.time ((s.deck d).setup.stableTimeout * 1000) } := by
  refine ⟨_, exec_warmUpTimerExpiry_acts hu hw hs, ?_⟩
  have hclosing := closingHolds_of_sameSize (deckChange_sameSize d .active .none s) hc
  obtain ⟨_, _, hunits, _⟩ := finish_frame s.register.mode _ hclosing
  obtain ⟨empty, idle, hdeck⟩ := finish_judged s.register.mode d hclosing
  obtain ⟨hentered, _⟩ := deckChange_frame d .active .none s
  obtain ⟨hstate, hexcited, _, _, _, hzd, _, _, _, _, _, _, _, hkept⟩ := entered_frame (s.deck d) .active .none
  obtain ⟨hzero, hwarm, hcause⟩ := entered_active_of_warming .none hs
  obtain ⟨hwindow, _⟩ := hkept (by rw [hs]; rfl)
  rw [hdeck, hentered]
  refine ⟨hstate, hexcited, hzero, hwarm, hcause, hwindow, hzd, fun c hcap ht => ?_⟩
  have hunit : (finish s.register.mode (deckChange d .active .none s)).unit d =
      (deckChange d .active .none s).unit d := by
    unfold State.unit
    rw [hunits]
  rw [hunit]
  exact deckChange_active_timeout .none hcap ht

theorem idleTimer_ends {s : State} {d : DeckId} (hu : s.up = true) (hi : (s.deck d).idle.isSome = true)
    (hs : (s.deck d).state = .active) :
    ∃ t, exec (.idleTimerExpiry d) s = .next t ∧ (t.deck d).state = .sleep ∧ (t.deck d).excitation = false ∧
      (t.deck d).current = none ∧ (t.deck d).idle = none ∧ (t.deck d).warmUp = none ∧
      (t.deck d).powerUpZero = false ∧ (t.deck d).zd = (s.deck d).zd ∧
      (t.deck d).zeroLimit = (s.deck d).zeroLimit ∧ (t.deck d).service = (s.deck d).service ∧
      ∀ c, (t.chan c).memberOf d = true → (t.chan c).arrival = false ∧ (t.chan c).missed = 0 ∧
        (t.chan c).lost = false ∧ (t.chan c).history = [] := by
  refine ⟨_, exec_idleTimerExpiry_acts hu hi hs, ?_⟩
  obtain ⟨hentered, _⟩ := deckChange_frame d .sleep .none s
  obtain ⟨hstate, hexcited, _, _, hservice, hzd, hlimit, _, _, _, _, hidle, _⟩ :=
    entered_frame (s.deck d) .sleep .none
  obtain ⟨hcurrent, hwarm, hzero⟩ := entered_sleep (s.deck d) .none
  have hrests : ((deckChange d .sleep .none s).deck d).state = .sleep := by rw [hentered]; exact hstate
  obtain ⟨hdeck, hmembers⟩ := finish_resting (s := deckChange d .sleep .none s) (d := d) s.register.mode
    (by rw [hrests]; decide) (by rw [hrests]; decide)
  rw [hdeck, hentered, judgeEmpty_false hidle]
  refine ⟨hstate, hexcited, hcurrent, hidle, hwarm, hzero, hzd, hlimit, hservice, fun c hm => ?_⟩
  have hstays := hmembers c hm
  rw [hstays] at hm ⊢
  rw [deckChange_member hm, hs, onDeckChange_active_sleep]
  exact ⟨rfl, rfl, rfl, rfl⟩

theorem stableTimeout_ends {s : State} {d : DeckId} {c : Capture} {since ms : Nat} (hu : s.up = true)
    (hc : (s.unit d).cap = some c) (ht : c.timeout = .running since ms) :
    ∃ t, exec (.stableTimeoutExpiry d) s = .next t ∧ (t.unit d).cap = none ∧
      (c.owner.kind ≠ .spot → s.tells t (.capture d c.owner (.failed .unstable)) ∧
        (t.unit d).lastSpot = (s.unit d).lastSpot) ∧
      (∀ l, c.owner = .spot l → (t.unit d).lastSpot = some ⟨l, c.start, .failed .unstable⟩ ∧
        (s.link l).told (t.link l) (.capture d c.owner (.failed .unstable))) ∧
      t.journal.records = s.journal.records ∧
      (∀ v, c.owner = .visitIn v.number → s.register.find v.number = some v → v.state = .weighIn →
        s.bound d = some v.number →
        t.register.find v.number = some { v with failure := some .unstable, capMark := false } ∧
        t.bound d = some v.number) ∧
      ∀ v, c.owner = .visitOut v.number → s.register.find v.number = some v → v.state = .weighOut →
        s.bound d = some v.number →
        t.register.find v.number =
          some { v with state := .onSite, exitLane := none, failure := some .unstable, capMark := false } ∧
        ∀ n, t.bound n ≠ some v.number := by
  refine ⟨_, exec_stableTimeoutExpiry_acts hu hc ht, ?_⟩
  obtain ⟨hunit, hall, hone⟩ := finish_endCapture s.register.mode (o := .failed .unstable) hc
  obtain ⟨hvisit, hspot⟩ := ended_lastSpot (s.unit d) c (.failed .unstable)
  rw [hunit]
  refine ⟨rfl, fun hk => ⟨hall hk, hvisit hk⟩, fun l hl => ⟨hspot l hl, hone l hl⟩,
    finish_failed_records _ _ _ _, fun v ho hv hs hb => ?_, fun v ho hv hs hb => ?_⟩
  · unfold State.bound
    rw [finish_endCapture_register _ d (by decide) hv, endCapture_visitIn_failed (by decide) hc ho hv hs hb]
    exact ⟨find_update_self _ (fun _ h => h) hv, hb⟩
  · unfold State.bound
    rw [finish_endCapture_register _ d (by decide) hv, endCapture_visitOut_failed _ hc ho hv hs hb]
    refine ⟨find_update_self _ (fun _ h => h) hv, fun n => ?_⟩
    rw [unbind_get]
    split
    · exact Option.some_ne_none _ |>.symm
    · assumption

/-- Settles O12, timer by timer. -/
theorem deckTimersChangeState : Obligations.DeckTimersChangeState :=
  ⟨fun _ _ hu hc hw hs => warmUpTimer_ends hu hc hw hs, fun _ _ hu hi hs => idleTimer_ends hu hi hs,
    fun _ _ _ _ _ hu hc ht => stableTimeout_ends hu hc ht⟩

end Sys2Proof.Machine
end

section
/-! PROOF. The requests on a deck (R31, R32, R39, R40, R41, R44): WAKE, ZERO, ZERO_CAL, SERVICE_ENTER, SERVICE_LEAVE. -/

namespace Sys2Proof.Machine

/-! ### A request's answer on a ready link -/

@[simp] theorem handling_deck (s : State) (l : LinkId) (code tag : Byte) (d : DeckId) :
    (s.handling l code tag).deck d = s.deck d := rfl

section
variable {α : Type} {l : LinkId} {s : State} (h : s.ready l) {code tag : Byte} {allowed : Role → Bool} {x : α}
  (ha : allowed (s.link l).role = true) {body : α → State → Answer} {st : Status} {data : List Byte}
include h ha

/-- A request that touches the yard is answered once its event has closed. -/
theorem request_taken {u : State} (hu : YardOnly (s.handling l code tag) u)
    (hb : body x (s.handling l code tag) = taken (s.handling l code tag) u st data) :
    (request l code tag allowed (some x) body s).replied l tag code st data ∧
      ∃ k, request l code tag allowed (some x) body s = (finish s.register.mode u).setLink l k := by
  have hlink := yard_request (yard_taken (s.handling l code tag) u st data hu) l
  obtain ⟨hanswer, hreplied⟩ := request_answer h code tag allowed x body ha _ hb hlink
  exact ⟨hreplied, _, hanswer⟩

/-- A request whose body changes nothing is answered, and nothing but the link changes. -/
theorem request_unmoved (hb : body x (s.handling l code tag) = ⟨s.handling l code tag, st, data⟩) :
    (request l code tag allowed (some x) body s).replied l tag code st data ∧
      s.onlyLink (request l code tag allowed (some x) body s) l := by
  obtain ⟨hanswer, hreplied⟩ := request_answer h code tag allowed x body ha _ hb rfl
  refine ⟨hreplied, ?_⟩
  rw [hanswer]
  simp [State.onlyLink, State.handling]

end

/-! ### WAKE -/

theorem exec_wake (l : LinkId) (tag : Byte) (d : DeckId) (s : State) :
    exec (.wake l tag (be1 d.val)) s = .next (request l 0x19 tag gateOffice (some d) wakeBody s) := by
  rw [← quadField_be1 d]
  rfl

theorem wakeBody_of_sleep {d : DeckId} {s : State} (hs : (s.deck d).state = .sleep) :
    wakeBody d s = taken s (deckChange d .warming .request s) .ok [] := by
  simp [wakeBody, wakeForRequest, hs]

theorem wakeBody_of_warming {d : DeckId} {s : State} (hs : (s.deck d).state = .warming) :
    wakeBody d s = taken s (s.setDeck d { s.deck d with wakeCause := .request }) .ok [] := by
  simp [wakeBody, wakeForRequest, hs]

theorem wakeBody_of_active {d : DeckId} {s : State} (hs : (s.deck d).state = .active) :
    wakeBody d s = taken s (s.setDeck d (s.deck d).restartIdle) .ok [] := by
  simp [wakeBody, hs]

theorem wakeBody_of_service {d : DeckId} {s : State} (hs : (s.deck d).state = .service) :
    wakeBody d s = ⟨s, .ok, []⟩ := by
  simp [wakeBody, hs]

theorem wakeBody_refuses {d : DeckId} {s : State} (hs : (s.deck d).state = .fault ∨ (s.deck d).state = .unused) :
    wakeBody d s = refuse .deckNotReady s := by
  rcases hs with hs | hs <;> simp [wakeBody, hs]

/-- R29, R44: a deck that begins to warm up. -/
theorem entered_warming (k : Deck) (cause : WakeCause) :
    (k.entered .warming cause).state = .warming ∧ (k.entered .warming cause).wakeCause = cause ∧
      (k.entered .warming cause).warmUp = some (k.setup.warmUp * 1000) ∧ (k.entered .warming cause).window = [] :=
  ⟨rfl, rfl, rfl, rfl⟩

/-- R47: the idle timer after a WAKE of an ACTIVE deck. -/
theorem restartIdle_idle (k : Deck) :
    k.restartIdle.idle =
      if k.idle.isSome = true ∧ k.setup.idleSleep ≠ 0 then some (k.setup.idleSleep * 60000) else none := by
  unfold Deck.restartIdle idleTimer
  by_cases hi : k.idle.isSome = true <;> by_cases hz : k.setup.idleSleep = 0 <;> simp [hi, hz]

section
variable {s : State} {l : LinkId} {tag : Byte} {d : DeckId} (h : s.ready l) (hrole : gateOffice (s.link l).role = true)
include h hrole

theorem wake_of_sleep (hc : s.closingHolds) (hs : (s.deck d).state = .sleep) :
    (request l 0x19 tag gateOffice (some d) wakeBody s).replied l tag 0x19 .ok [] ∧
      ((s.deck d).entered .warming .request).judgedFrom
        ((request l 0x19 tag gateOffice (some d) wakeBody s).deck d) := by
  obtain ⟨hr, k, e⟩ := request_taken h hrole (x := d) (yard_deckChange d .warming .request (s.handling l 0x19 tag))
    (wakeBody_of_sleep hs)
  have hclosing := closingHolds_of_sameSize (deckChange_sameSize d .warming .request (s.handling l 0x19 tag)) hc
  obtain ⟨hentered, _⟩ := deckChange_frame d .warming .request (s.handling l 0x19 tag)
  have hjudged := finish_judged s.register.mode d hclosing
  rw [hentered] at hjudged
  refine ⟨hr, ?_⟩
  rw [e]
  exact hjudged

/-- A WAKE that changes the deck by `k'` alone: OK, and the close of its event judges EMPTY on it. -/
theorem wake_setDeck (hc : s.closingHolds) {k' : Deck} (hsetup : k'.setup = (s.deck d).setup)
    (hbad : k'.setupBad = (s.deck d).setupBad) (hstate : k'.state = (s.deck d).state)
    (hb : wakeBody d (s.handling l 0x19 tag) =
      taken (s.handling l 0x19 tag) ((s.handling l 0x19 tag).setDeck d k') .ok []) :
    (request l 0x19 tag gateOffice (some d) wakeBody s).replied l tag 0x19 .ok [] ∧
      (request l 0x19 tag gateOffice (some d) wakeBody s).deck d = k'.judgeEmpty (s.isEmpty d) := by
  obtain ⟨hr, k, e⟩ := request_taken h hrole (x := d)
    (yard_setDeck (s.handling l 0x19 tag) d k' hsetup hbad) hb
  refine ⟨hr, ?_⟩
  obtain ⟨_, _, _, _, _, hdeck, _⟩ := finish_frame s.register.mode ((s.handling l 0x19 tag).setDeck d k') hc
  have hempty : ((s.handling l 0x19 tag).setDeck d k').isEmpty d = s.isEmpty d := by
    unfold State.isEmpty
    rw [setDeck_deck_self, hstate]
    rfl
  rw [e, setLink_deck, hdeck, setDeck_deck_self, hempty]

end

/-- Settles O13, by the six states of the deck. -/
theorem wakeActsByDeckState : Obligations.WakeActsByDeckState := by
  intro s l tag d h hrole hc
  refine ⟨_, exec_wake l tag d s, fun hs => ?_, fun hs => ?_, fun hs => ?_, fun hs => ?_, fun hs => ?_⟩
  · obtain ⟨hr, empty, idle, hdeck⟩ := wake_of_sleep h hrole hc hs
    rw [hdeck]
    exact ⟨hr, entered_warming (s.deck d) .request⟩
  · have hbody := wakeBody_of_warming (s := s.handling l 0x19 tag) hs
    rw [handling_deck] at hbody
    obtain ⟨hr, hdeck⟩ := wake_setDeck h hrole hc (k' := { s.deck d with wakeCause := .request }) rfl rfl rfl hbody
    obtain ⟨empty, idle, hjudged⟩ := judgeEmpty_judgedFrom { s.deck d with wakeCause := .request } (s.isEmpty d)
    rw [hdeck, hjudged]
    exact ⟨hr, hs, rfl, rfl⟩
  · have hbody := wakeBody_of_active (s := s.handling l 0x19 tag) hs
    rw [handling_deck] at hbody
    obtain ⟨hr, hdeck⟩ := wake_setDeck h hrole hc (k' := (s.deck d).restartIdle) rfl rfl rfl hbody
    refine ⟨hr, ?_, fun he => ?_⟩
    · obtain ⟨empty, idle, hjudged⟩ := judgeEmpty_judgedFrom (s.deck d).restartIdle (s.isEmpty d)
      rw [hdeck, hjudged]
      exact hs
    · have hsame : (s.deck d).restartIdle.judgeEmpty (s.isEmpty d) = (s.deck d).restartIdle := if_pos he.symm
      rw [hdeck, hsame]
      exact restartIdle_idle _
  · obtain ⟨hr, honly⟩ := request_unmoved h hrole (x := d) (wakeBody_of_service (s := s.handling l 0x19 tag) hs)
    refine ⟨hr, ?_⟩
    rw [honly]
    rfl
  · exact request_unmoved h hrole (x := d) (wakeBody_refuses (s := s.handling l 0x19 tag) hs)

/-! ### ZERO -/

theorem exec_zeroDeck (l : LinkId) (tag : Byte) (d : DeckId) (s : State) :
    exec (.zeroDeck l tag (be1 d.val)) s = .next (request l 0x1A tag gateOffice (some d) zeroBody s) := by
  rw [← quadField_be1 d]
  rfl

/-- R39: with every check passed, the deck is zeroed. -/
theorem zeroBody_passes {d : DeckId} {s : State} {w : CurrentWeight}
    (hs : (s.deck d).state = .active ∨ (s.deck d).state = .service) (hz : (s.deck d).zeroCal = [])
    (hu : (s.unit d).cap = none) (hl : (s.lane d).deckLoop.occupied = false) (hw : (s.deck d).current = some w)
    (hst : (s.deck d).stable = true) (hr : (w.a.natAbs : Int) ≤ (s.deck d).setup.max * 20) :
    zeroBody d s = ⟨s.setDeck d ((s.deck d).moveZero w.a false), .ok, []⟩ := by
  have hzeroable : (s.deck d).state.zeroable = true := by rcases hs with e | e <;> rw [e] <;> rfl
  have hzeroed : (s.deck d).zeroed = (s.deck d).moveZero w.a false := by simp [Deck.zeroed, hw]
  unfold zeroBody
  rw [hzeroed]
  refine (checked_spec _ _ _).1 ?_
  simpa [hzeroable, hz, CaptureUnit.busy, hu, hl, Deck.isSteady, hst, Deck.zeroInRange, hw, DeckSetup.zeroLimit] using hr

/-- Settles O14: the checks pass, and the body sets the deck alone. -/
theorem zeroTakesTheAverage : Obligations.ZeroTakesTheAverage := by
  intro s l tag d w h hrole hs hz hu hl hw hst hr
  obtain ⟨e, hreplied⟩ := request_answer h 0x1A tag gateOffice d zeroBody hrole _
    (zeroBody_passes (s := s.handling l 0x1A tag) hs hz hu hl hw hst hr) rfl
  refine ⟨_, exec_zeroDeck l tag d s, hreplied, ?_⟩
  rw [e]
  change State.setLink (State.setLink (s.setDeck d _) l _) l _ = _
  rw [setLink_setLink, setLink_link_self]
  rfl

/-! ### ZERO_CAL -/

theorem exec_zeroCal (l : LinkId) (tag : Byte) (d : DeckId) (calen : Bool) (s : State) :
    exec (.zeroCal l tag (be1 d.val) calen) s =
      .next (request l 0x1B tag officeOnly (some d) (zeroCalBody calen) (s.withCalen calen)) := by
  rw [← quadField_be1 d]
  rfl

/-- R40: with every check passed, the progress is kept and the first write started. -/
theorem zeroCalBody_passes {d : DeckId} {s : State} (hm : (s.deck d).service = true)
    (hs : (s.deck d).state = .service) (he : s.store.engine = none) (hst : (s.deck d).stable = true)
    (hw : (s.deck d).current.isSome = true)
    (hn : ∀ c, (s.chan c).memberOf d = true → 2 ^ (s.deck d).setup.k ≤ (s.chan c).history.length) :
    zeroCalBody true d s = ⟨startZeroCal d s, .accepted, []⟩ := by
  have hlong : (s.members d).all (fun ch => decide (2 ^ (s.deck d).setup.k ≤ ch.history.length)) = true := by
    refine List.all_eq_true.mpr (fun ch hch => ?_)
    obtain ⟨c, rfl, hc⟩ := (mem_members s d ch).mp hch
    exact decide_eq_true (hn c hc)
  unfold zeroCalBody
  refine (checked_spec _ _ _).1 ?_
  simp [hm, hs, he, Deck.isSteady, hst, hw, hlong]

theorem startWrite_deck (w : StoreWrite) (z : Option DeckId) (s : State) (d : DeckId) :
    (startWrite w z s).deck d = s.deck d := rfl

/-- R40, R41: the progress of a deck with members, and the first write in flight. -/
theorem startZeroCal_cons {s : State} {d : DeckId} {c : ChanId} {rest : List ChanId} (h : s.memberIds d = c :: rest) :
    startZeroCal d s =
      startWrite (zeroCalWrite s c (zeroCount (s.deck d).setup.k (s.chan c))) (some d)
        (s.setDeck d { s.deck d with zeroCal := zeroCalValues s d }) := by
  have hvalues : zeroCalValues s d =
      (c, zeroCount (s.deck d).setup.k (s.chan c)) ::
        rest.map (fun c => (c, zeroCount (s.deck d).setup.k (s.chan c))) := by
    rw [zeroCalValues, h, List.map_cons]
  unfold startZeroCal
  dsimp only
  rw [hvalues]
  rfl

/-- Settles O15: the checks pass, and the body keeps the means and starts the first write. -/
theorem zeroCalKeepsMeansAndStarts : Obligations.ZeroCalKeepsMeansAndStarts := by
  intro s l tag d c rest h hrole hm hs he hst hw hn hids
  have hready : (s.withCalen true).ready l := h
  have hoffice : officeOnly ((s.withCalen true).link l).role = true := by
    change officeOnly (s.link l).role = true
    rw [hrole]
    rfl
  have hbody := zeroCalBody_passes (s := (s.withCalen true).handling l 0x1B tag) hm hs he hst hw hn
  rw [startZeroCal_cons (s := (s.withCalen true).handling l 0x1B tag) hids] at hbody
  obtain ⟨e, hreplied⟩ := request_answer hready 0x1B tag officeOnly d (zeroCalBody true) hoffice _ hbody rfl
  refine ⟨_, exec_zeroCal l tag d true s, hreplied, ?_⟩
  rw [e, setLink_deck, startWrite_deck, setDeck_deck_self]
  refine ⟨?_, rfl, rfl, rfl⟩
  rw [← hids]
  rfl

/-! ### SERVICE_ENTER -/

theorem exec_serviceEnter (l : LinkId) (tag : Byte) (d : DeckId) (s : State) :
    exec (.serviceEnter l tag (be1 d.val)) s = .next (request l 0x1C tag officeOnly (some d) serviceEnterBody s) := by
  rw [← quadField_be1 d]
  rfl

/-- R31: the service mark set, and a capturable deck in SERVICE, before its lane is asked to withdraw. -/
def State.inService (s : State) (d : DeckId) : State :=
  if (s.deck d).state.capturable then deckChange d .service .none (s.setDeck d { s.deck d with service := true })
  else s.setDeck d { s.deck d with service := true }

theorem enterService_eq (d : DeckId) (s : State) :
    enterService d s = applyLane d (((s.inService d).lane d).withdraw Cause.isVisit) (s.inService d) := rfl

theorem yard_inService (s : State) (d : DeckId) : YardOnly s (s.inService d) := by
  have hmark := yard_setDeck s d { s.deck d with service := true } rfl rfl
  unfold State.inService
  split
  · exact hmark.trans (yard_deckChange _ _ _ _)
  · exact hmark

theorem yard_enterService (d : DeckId) (s : State) : YardOnly s (enterService d s) :=
  (yard_inService s d).trans (yard_applyLane d _ _ (withdraw_spec _ _).1)

/-- R29, R31: the deck as SERVICE_ENTER leaves it. -/
def Deck.inService (k : Deck) : Deck :=
  if k.state.capturable then { k with service := true }.entered .service .none else { k with service := true }

theorem inService_deck (s : State) (d : DeckId) : (s.inService d).deck d = (s.deck d).inService := by
  unfold State.inService Deck.inService
  split
  · obtain ⟨hentered, _⟩ := deckChange_frame d .service .none (s.setDeck d { s.deck d with service := true })
    rw [hentered, setDeck_deck_self]
  · exact setDeck_deck_self _ _ _

theorem inService_lane (s : State) (d n : DeckId) : (s.inService d).lane n = s.lane n := by
  unfold State.inService
  split
  · obtain ⟨_, _, _, _, hlanes, _⟩ :=
      deckChange_frame d .service .none (s.setDeck d { s.deck d with service := true })
    unfold State.lane
    rw [hlanes]
    rfl
  · rfl

/-- R60: the capture of a deck that enters SERVICE ends. -/
theorem inService_unit {s : State} {d : DeckId} (h : (s.deck d).state.capturable = true) :
    ((s.inService d).unit d).cap = none := by
  obtain ⟨hidle, _⟩ := endCapture_frame d (.failed .aborted)
    (enterDeck d .service .none (s.setDeck d { s.deck d with service := true }))
  unfold State.inService
  rw [if_pos h]
  exact hidle

/-- What a lane hands on leaves the decks and the units. -/
theorem applyLane_deck_unit (n : LaneId) (r : LaneStep) (s : State) (d : DeckId) :
    (applyLane n r s).deck d = s.deck d ∧ (applyLane n r s).unit d = s.unit d := by
  obtain ⟨e, _⟩ := applyLane_frame n r s
  rw [e]
  exact ⟨rfl, rfl⟩

theorem enterService_deck (d : DeckId) (s : State) : (enterService d s).deck d = (s.deck d).inService := by
  rw [enterService_eq, (applyLane_deck_unit d _ _ d).1, inService_deck]

theorem enterService_unit {d : DeckId} {s : State} (h : (s.deck d).state.capturable = true) :
    ((enterService d s).unit d).cap = none := by
  rw [enterService_eq, (applyLane_deck_unit d _ _ d).2]
  exact inService_unit h

/-- R86: a PENDING VISIT cause of the lane is withdrawn. -/
theorem enterService_cause {d : DeckId} {s : State} {x : Cause} (hx : (s.lane d).cause = some x)
    (hp : x.isPending = true) (hv : x.isVisit = true) :
    ((enterService d s).lane d).cause = some { x with status := .withdrawn } := by
  obtain ⟨_, _, _, _, _, _, _, _, hcause⟩ := withdraw_spec (s.lane d) Cause.isVisit
  rw [enterService_eq, applyLane_lane_self, inService_lane, hcause (by simp [Lane.pendingCause, hx, hp, hv]), hx]
  rfl

/-- R31: the mark set and Zd kept; the state is SERVICE from a capturable one, and the same from any other. -/
theorem deckInService_spec (k : Deck) :
    k.inService.service = true ∧ k.inService.zd = k.zd ∧
      (k.state.capturable = true → k.inService.state = .service ∧ k.inService.excitation = true) ∧
      (k.state.capturable = false → k.inService.state = k.state) := by
  unfold Deck.inService
  split
  · rename_i h
    obtain ⟨hstate, hexcited, _, _, hservice, hzd, _⟩ := entered_frame { k with service := true } .service .none
    exact ⟨hservice, hzd, fun _ => ⟨hstate, hexcited⟩, fun hn => absurd h (by simp [hn])⟩
  · rename_i h
    exact ⟨rfl, rfl, fun hp => absurd hp h, fun _ => rfl⟩

/-- A deck with its mark set by SERVICE_ENTER is neither ACTIVE nor WARMING: the closing of the yard leaves it. -/
theorem deckInService_rests (k : Deck) : k.inService.state ≠ .active ∧ k.inService.state ≠ .warming := by
  obtain ⟨_, _, hin, hout⟩ := deckInService_spec k
  cases hk : k.state.capturable with
  | true =>
    rw [(hin hk).1]
    decide
  | false =>
    rw [hout hk]
    constructor <;>
    · intro e
      rw [e] at hk
      cases hk

/-- Settles O16: the deck entered, the unit and the withdrawn cause stand at the close of the event. -/
theorem serviceEnterTakesDeck : Obligations.ServiceEnterTakesDeck := by
  intro s l tag d h hrole hm
  have hoffice : officeOnly (s.link l).role = true := by rw [hrole]; rfl
  have hbody : serviceEnterBody d (s.handling l 0x1C tag) =
      taken (s.handling l 0x1C tag) (enterService d (s.handling l 0x1C tag)) .ok [] :=
    if_neg (ne_true_of_eq_false hm)
  obtain ⟨hr, k, e⟩ := request_taken h hoffice (yard_enterService d (s.handling l 0x1C tag)) hbody
  refine ⟨_, exec_serviceEnter l tag d s, hr, ?_⟩
  rw [e, setLink_deck, setLink_unit, setLink_lane]
  have hdeck := enterService_deck d (s.handling l 0x1C tag)
  rw [handling_deck] at hdeck
  obtain ⟨hactive, hwarming⟩ := deckInService_rests (s.deck d)
  obtain ⟨hfinish, _⟩ := finish_resting (s := enterService d (s.handling l 0x1C tag)) (d := d) s.register.mode
    (by rw [hdeck]; exact hactive) (by rw [hdeck]; exact hwarming)
  obtain ⟨empty, idle, hjudged⟩ := judgeEmpty_judgedFrom (s.deck d).inService false
  rw [hfinish, hdeck, hjudged]
  obtain ⟨hservice, hzd, hin, hout⟩ := deckInService_spec (s.deck d)
  refine ⟨hservice, hzd, fun hs => ?_, fun hs => ?_, fun x hx hp hv => ?_⟩
  · obtain ⟨hstate, hexcited⟩ := hin hs
    have hidle := enterService_unit (s := s.handling l 0x1C tag) hs
    refine ⟨hstate, hexcited, ?_⟩
    rw [finish_idle_unit _ hidle]
    exact hidle
  · exact hout (by rcases hs with e | e <;> rw [e] <;> rfl)
  · obtain ⟨_, w, hlane⟩ := finish_lane s.register.mode (enterService d (s.handling l 0x1C tag)) d
    rw [hlane]
    exact enterService_cause (s := s.handling l 0x1C tag) hx hp hv

/-! ### SERVICE_LEAVE -/

theorem exec_serviceLeave (l : LinkId) (tag : Byte) (d : DeckId) (s : State) :
    exec (.serviceLeave l tag (be1 d.val)) s = .next (request l 0x1D tag officeOnly (some d) serviceLeaveBody s) := by
  rw [← quadField_be1 d]
  rfl

theorem serviceLeaveBody_refuses {d : DeckId} {s : State} (h : (s.deck d).service = false ∨ (s.deck d).zeroCal ≠ []) :
    serviceLeaveBody d s = refuse .wrongState s := by
  unfold serviceLeaveBody
  rw [if_neg]
  rcases h with h | h <;> simp [h]

theorem serviceLeaveBody_passes {d : DeckId} {s : State} (h : (s.deck d).service = true)
    (hz : (s.deck d).zeroCal = []) : serviceLeaveBody d s = taken s (leaveService d s) .ok [] := by
  simp [serviceLeaveBody, h, hz]

/-- R29, R32: the deck as SERVICE_LEAVE leaves it. -/
def Deck.outOfService (k : Deck) : Deck :=
  if k.state = .service then { k with service := false }.entered .active .none else { k with service := false }

theorem leaveService_deck (d : DeckId) (s : State) : (leaveService d s).deck d = (s.deck d).outOfService := by
  unfold leaveService Deck.outOfService
  dsimp only
  split
  · obtain ⟨hentered, _⟩ := deckChange_frame d .active .none (s.setDeck d { s.deck d with service := false })
    rw [hentered, setDeck_deck_self]
  · exact setDeck_deck_self _ _ _

theorem yard_leaveService (d : DeckId) (s : State) : YardOnly s (leaveService d s) := by
  have hmark := yard_setDeck s d { s.deck d with service := false } rfl rfl
  unfold leaveService
  dsimp only
  split
  · exact hmark.trans (yard_deckChange _ _ _ _)
  · exact hmark

theorem leaveService_sameSize (d : DeckId) (s : State) : s.register.sameSize (leaveService d s).register := by
  unfold leaveService
  dsimp only
  split
  · exact deckChange_sameSize d .active .none (s.setDeck d { s.deck d with service := false })
  · exact Register.sameSize.refl _

/-- R32: the mark is clear; a deck in SERVICE is ACTIVE with what it had measured, any other keeps its state. -/
theorem deckOutOfService_spec (k : Deck) :
    k.outOfService.service = false ∧
      (k.state = .service → k.outOfService.state = .active ∧ k.outOfService.powerUpZero = false ∧
        k.outOfService.warmUp = none ∧ k.outOfService.window = k.window ∧ k.outOfService.history = k.history ∧
        k.outOfService.current = k.current ∧ k.outOfService.stable = k.stable) ∧
      (k.state ≠ .service → k.outOfService.state = k.state) := by
  unfold Deck.outOfService
  split
  · rename_i h
    simp [Deck.entered, Deck.quiet, emptiesOn, h]
  · rename_i h
    exact ⟨rfl, fun hs => absurd hs h, fun _ => rfl⟩

/-- Settles O17: refused, or the deck as it leaves SERVICE stands at the close of the event. -/
theorem serviceLeaveReturnsDeck : Obligations.ServiceLeaveReturnsDeck := by
  intro s l tag d h hrole hc
  have hoffice : officeOnly (s.link l).role = true := by rw [hrole]; rfl
  refine ⟨_, exec_serviceLeave l tag d s, fun hr => ?_, fun hm hz => ?_⟩
  · exact request_unmoved h hoffice (serviceLeaveBody_refuses (s := s.handling l 0x1D tag) hr)
  · obtain ⟨hr, k, e⟩ := request_taken h hoffice (yard_leaveService d (s.handling l 0x1D tag))
      (serviceLeaveBody_passes (s := s.handling l 0x1D tag) hm hz)
    have hclosing := closingHolds_of_sameSize (leaveService_sameSize d (s.handling l 0x1D tag)) hc
    obtain ⟨empty, idle, hjudged⟩ := finish_judged s.register.mode d hclosing
    rw [leaveService_deck, handling_deck] at hjudged
    obtain ⟨hservice, hactive, hkept⟩ := deckOutOfService_spec (s.deck d)
    refine ⟨hr, ?_⟩
    rw [e, setLink_deck, hjudged]
    refine ⟨hservice, hactive, fun hs => hkept ?_⟩
    rcases hs with e | e <;> rw [e] <;> decide

end Sys2Proof.Machine
end

section
/-! PROOF. A sample of an ACTIVE deck decides its waiting capture (R57, R58, R64, R66, R67). -/

namespace Sys2Proof.Machine

/-! ### What a sample decides -/

/-- R57, R58: the unit decides by the rules' cases, in their order. -/
theorem decideSample_eq_decidedOutcome (u : DeckSetup) (owner : CapOwner) (w : CurrentWeight) (r : Weighing) :
    decideSample u (owner.kind == .spot) w r = decidedOutcome u owner w r := by
  have hlight : w.reported < u.minCapture ↔ w.reported < 20 * u.e := Iff.rfl
  unfold decideSample decidedOutcome
  by_cases h : owner.kind = .spot <;> simp [h, hlight]

/-- R57: in MOTION the unit waits. -/
theorem examineSample_motion {s : State} {d : DeckId} (zl : Bool) (hst : (s.deck d).stable = false) :
    examineSample d zl s = s := by
  unfold examineSample
  split
  · exact if_neg (by simp [hst])
  · rfl

/-- R57, R58: a STABLE sample of an ACTIVE deck ends the waiting capture with what it decides. -/
theorem examineSample_stable {s : State} {d : DeckId} {p : Capture} {w : CurrentWeight} (zl : Bool)
    (hp : (s.unit d).cap = some p) (hw : (s.deck d).current = some w) (hs : (s.deck d).state = .active)
    (hst : (s.deck d).stable = true) :
    examineSample d zl s = endCapture d
      (decidedOutcome (s.deck d).setup p.owner w ⟨d, p.owner.kind, w.reported, s.clock.time, zl⟩) s := by
  unfold examineSample
  rw [hp, hw]
  dsimp only
  rw [if_pos ⟨hs, hst⟩, decideSample_eq_decidedOutcome]

/-! ### The unit at a sample just formed -/

/-- A sample keeps the deck's setup and state, whatever the zero does at it. -/
theorem sampledZero_setup_state (k : Deck) (b : Bool) (ms : List Channel) :
    (k.sampledZero b ms).setup = k.setup ∧ (k.sampledZero b ms).state = k.state := by
  obtain ⟨hsetup, _, hstate, _⟩ := zeroStep_frame (k.sample ms)
  cases b with
  | true => exact ⟨hsetup, hstate⟩
  | false => exact ⟨rfl, rfl⟩

/-- R57: at the close of its event a MOTION sample has left the unit as it was. -/
theorem finish_motion_unit (m : YardMode) (zl : Bool) {s : State} {d : DeckId} (hc : s.closingHolds)
    (hst : ((s.deck d).sample (s.members d)).stable = false) :
    (finish m (examineSample d zl (s.sampled d))).unit d = s.unit d := by
  obtain ⟨_, _, _, hstable⟩ := sampled_sameStages s d
  obtain ⟨_, _, hunits, _⟩ := finish_frame m (s.sampled d) hc
  rw [examineSample_motion zl (hstable.trans hst)]
  unfold State.unit
  rw [hunits]
  rfl

/-- R57, R58: the weight of the sample decides, with the setup of the deck and the ZERO_LIMIT given. -/
theorem examineSample_sampled {s : State} {d : DeckId} {p : Capture} {w : CurrentWeight} (zl : Bool)
    (hp : (s.unit d).cap = some p) (hs : (s.deck d).state = .active)
    (hw : ((s.deck d).sample (s.members d)).current = some w)
    (hst : ((s.deck d).sample (s.members d)).stable = true) :
    examineSample d zl (s.sampled d) = endCapture d
      (decidedOutcome (s.deck d).setup p.owner w ⟨d, p.owner.kind, w.reported, s.clock.time, zl⟩) (s.sampled d) := by
  obtain ⟨_, _, hcurrent, hstable⟩ := sampled_sameStages s d
  obtain ⟨hsetup, hstate⟩ := sampledZero_setup_state (s.deck d) (s.isEmpty d) (s.members d)
  rw [← sampled_deck] at hsetup hstate
  have hunit : ((s.sampled d).unit d).cap = some p := hp
  rw [examineSample_stable zl hunit (hcurrent.trans hw) (hstate.trans hs) (hstable.trans hst), hsetup]
  rfl

/-- Settles O9: the reading completes the sample; in MOTION the unit waits, a STABLE sample ends its capture. -/
theorem stableSampleDecidesCapture : Obligations.StableSampleDecidesCapture := by
  intro s c raw d p w hu hc hm hs ha hp hw
  dsimp only
  refine ⟨_, exec_cellReading_right hu c raw, ?_⟩
  rw [takeReading_completes raw.toInt hm (by rw [hs]; rfl) ha]
  generalize hafter : s.setChan c ((s.chan c).accept true raw.toInt) = u at hw ⊢
  have hdeck : u.deck d = s.deck d := by rw [← hafter]; rfl
  have hunit : u.unit d = s.unit d := by rw [← hafter]; rfl
  have hlinks : u.links = s.links := by rw [← hafter]; rfl
  have hclock : u.clock = s.clock := by rw [← hafter]; rfl
  have hclosing : u.closingHolds := by rw [← hafter]; exact hc
  obtain ⟨⟨_, _, _, hstable⟩, _⟩ := finish_sampled s.register.mode (s.deck d).zeroLimit d hclosing
  rw [← hdeck] at hw hs
  rw [← hunit] at hp
  refine ⟨fun hst => ?_, fun hst => ?_⟩ <;> rw [hstable] at hst
  · rw [finish_motion_unit _ _ hclosing hst, hunit]
  · rw [examineSample_sampled _ hp hs hw hst, hdeck, hclock]
    generalize decidedOutcome (s.deck d).setup p.owner w _ = o
    obtain ⟨hended, hall, hone⟩ := finish_endCapture (s := u.sampled d) s.register.mode (o := o) hp
    obtain ⟨hvisit, hspot⟩ := ended_lastSpot (s.unit d) p o
    have hunit' : (u.sampled d).unit d = s.unit d := hunit
    have hlink : ∀ l, (u.sampled d).link l = s.link l := fun l => congrArg (Vector.get · l) hlinks
    unfold State.tells at hall
    simp only [hlink] at hall hone
    rw [hended, hunit']
    exact ⟨rfl, fun l hl => ⟨hspot l hl, hone l hl⟩, fun hk => ⟨hvisit hk, hall hk⟩⟩

end Sys2Proof.Machine
end

section
/-! PROOF. An accepted SPOT_WEIGH (R44, R47, R54, R55): the capture started on an IDLE unit, and the deck woken for it. -/

namespace Sys2Proof.Machine

/-! ### A capture started on an IDLE unit -/

/-- R51, R55: the unit with a capture accepted now, before the deck is woken for it. -/
def State.capturing (s : State) (d : DeckId) (owner : CapOwner) : State :=
  s.setUnit d { s.unit d with cap := some ⟨owner, s.clock.time, firstTimeout s d⟩ }

/-- R52: on an IDLE unit there is nothing to preempt. -/
theorem startCapture_idle {s : State} {d : DeckId} (owner : CapOwner) (h : (s.unit d).cap = none) :
    startCapture d owner s = wakeForRequest d (s.capturing d owner) := by
  obtain ⟨_, _, _, _, _, _, hidle, _⟩ := endCapture_frame d (.failed .preempted) s
  unfold startCapture
  rw [hidle h]
  rfl

/-- R44: the waking of a deck for a request leaves the capture units, and the yard's mode and number of visits. -/
theorem wakeForRequest_frame (d : DeckId) (s : State) :
    (wakeForRequest d s).units = s.units ∧ s.register.sameSize (wakeForRequest d s).register := by
  unfold wakeForRequest
  split <;> exact ⟨rfl, Register.sameSize.refl _⟩

/-- R44: a deck that is neither in FAULT, SERVICE nor UNUSED is left ACTIVE, or is WARMING with cause REQUEST. -/
theorem wakeForRequest_deck {d : DeckId} {s : State} (h : (s.deck d).state.capturable = true) :
    ((s.deck d).state = .active → (wakeForRequest d s).deck d = s.deck d) ∧
      ((s.deck d).state ≠ .active →
        ((wakeForRequest d s).deck d).state = .warming ∧ ((wakeForRequest d s).deck d).wakeCause = .request) := by
  unfold wakeForRequest
  cases hs : (s.deck d).state with
  | active => exact ⟨fun _ => rfl, fun hn => absurd rfl hn⟩
  | sleep =>
    obtain ⟨hentered, _⟩ := deckChange_frame d .warming .request s
    obtain ⟨hstate, hcause, _⟩ := entered_warming (s.deck d) .request
    refine ⟨fun e => (by cases e), fun _ => ?_⟩
    dsimp only
    rw [hentered]
    exact ⟨hstate, hcause⟩
  | warming =>
    refine ⟨fun e => (by cases e), fun _ => ?_⟩
    dsimp only
    rw [setDeck_deck_self]
    exact ⟨hs, rfl⟩
  | unused | fault | service =>
    rw [hs] at h
    cases h

/-- R35: a deck with a waiting capture is not EMPTY. -/
theorem isEmpty_of_busy {s : State} {d : DeckId} {p : Capture} (h : (s.unit d).cap = some p) : s.isEmpty d = false := by
  simp [State.isEmpty, CaptureUnit.busy, h]

/-- R47: the end of EMPTY stops the idle timer. -/
theorem judgeEmpty_stops {k : Deck} (h : k.empty = true) : (k.judgeEmpty false).idle = none := by
  simp [Deck.judgeEmpty, h]

/-- An accepted capture at the close of its event: the unit holds it, and the deck, woken for it, is judged not EMPTY. -/
theorem finish_startCapture (m : YardMode) (owner : CapOwner) {s : State} {d : DeckId} (hc : s.closingHolds)
    (h : (s.unit d).cap = none) :
    (finish m (startCapture d owner s)).unit d =
        { s.unit d with cap := some ⟨owner, s.clock.time, firstTimeout s d⟩ } ∧
      (finish m (startCapture d owner s)).deck d =
        ((wakeForRequest d (s.capturing d owner)).deck d).judgeEmpty false := by
  rw [startCapture_idle owner h]
  obtain ⟨hunits, hsize⟩ := wakeForRequest_frame d (s.capturing d owner)
  have hunit : (wakeForRequest d (s.capturing d owner)).unit d =
      { s.unit d with cap := some ⟨owner, s.clock.time, firstTimeout s d⟩ } := by
    unfold State.unit
    rw [hunits]
    exact setUnit_unit_self _ _ _
  obtain ⟨_, _, hunits', _, _, hdeck, _⟩ := finish_frame m _ (closingHolds_of_sameSize hsize hc)
  refine ⟨?_, ?_⟩
  · rw [← hunit]
    unfold State.unit
    rw [hunits']
  · rw [hdeck, isEmpty_of_busy (by rw [hunit])]

/-! ### SPOT_WEIGH -/

theorem exec_spotWeigh (l : LinkId) (tag : Byte) (d : DeckId) (s : State) :
    exec (.spotWeigh l tag (be1 d.val)) s =
      .next (request l 0x18 tag gateOffice (some d) (spotWeighBody l) s) := by
  rw [← quadField_be1 d]
  rfl

/-- R54: with every check passed, the capture starts. -/
theorem spotWeighBody_passes (l : LinkId) {d : DeckId} {s : State} (hs : (s.deck d).state.capturable = true)
    (hu : (s.unit d).cap = none) : spotWeighBody l d s = taken s (startCapture d (.spot l) s) .accepted [] := by
  unfold spotWeighBody
  exact (checked_spec _ _ _).1 (by simp [hs, CaptureUnit.busy, hu])

/-- Settles O18: the checks pass, and the capture and the woken deck stand at the close of the event. -/
theorem spotWeighStartsCapture : Obligations.SpotWeighStartsCapture := by
  intro s l tag d h hrole hc hs hu
  obtain ⟨hreplied, k, e⟩ := request_taken h hrole (x := d)
    (yard_startCapture d (.spot l) (s.handling l 0x18 tag)) (spotWeighBody_passes (s := s.handling l 0x18 tag) l hs hu)
  obtain ⟨hunit, hdeck⟩ := finish_startCapture s.register.mode (.spot l) (s := s.handling l 0x18 tag) hc hu
  obtain ⟨hactive, hwoken⟩ :=
    wakeForRequest_deck (s := (s.handling l 0x18 tag).capturing d (.spot l)) hs
  generalize (wakeForRequest d ((s.handling l 0x18 tag).capturing d (.spot l))).deck d = k' at hdeck hactive hwoken
  obtain ⟨empty, idle, hjudged⟩ := judgeEmpty_judgedFrom k' false
  refine ⟨_, exec_spotWeigh l tag d s, hreplied, ?_⟩
  rw [e, setLink_unit, setLink_deck, hunit, hdeck]
  refine ⟨rfl, rfl, ?_, fun hn => ?_, fun ha he => judgeEmpty_stops ?_⟩
  · rw [hjudged]
    split
    · rename_i ha
      rw [hactive ha]
      exact ha
    · rename_i hn
      exact (hwoken hn).1
  · rw [hjudged]
    exact (hwoken hn).2
  · rw [hactive ha]
    exact he

end Sys2Proof.Machine
end

section
/-! PROOF. The work an event or a request does on the yard before its close: outside the yard everything stays, and each
lane keeps its latest word and the guard of its CLEAR loop (R77, R83, R85, R91); what the close makes of it. -/

namespace Sys2Proof.Machine

/-! ### Work on the yard -/

/-- The lane's latest word stays, and the guard of its CLEAR loop where it holds. -/
def Lane.kept (k k' : Lane) : Prop := k'.word = k.word ∧ (k.clearGuarded → k'.clearGuarded)

theorem Lane.kept_refl (k : Lane) : k.kept k := ⟨rfl, id⟩

theorem Lane.kept_trans {a b c : Lane} (h : a.kept b) (h' : b.kept c) : a.kept c :=
  ⟨h'.1.trans h.1, fun hg => h'.2 (h.2 hg)⟩

theorem kept_of_sameSite {k k' : Lane} (h : k.sameSite k') (hg : k.clearGuarded → k'.clearGuarded) : k.kept k' := by
  obtain ⟨_, _, _, _, _, _, _, _, _, hword⟩ := h
  exact ⟨hword, hg⟩

/-- Work on the yard: everything outside it stays, and every lane is kept. -/
structure YardWork (s t : State) : Prop where
  yard : YardOnly s t
  lanes : ∀ n, (s.lane n).kept (t.lane n)

/-- Work on the yard that leaves the journal. -/
structure QuietWork (s t : State) : Prop extends YardWork s t where
  journal : t.journal = s.journal

theorem YardWork.trans {a b c : State} (h : YardWork a b) (h' : YardWork b c) : YardWork a c :=
  ⟨h.yard.trans h'.yard, fun n => Lane.kept_trans (h.lanes n) (h'.lanes n)⟩

theorem QuietWork.trans {a b c : State} (h : QuietWork a b) (h' : QuietWork b c) : QuietWork a c :=
  ⟨h.toYardWork.trans h'.toYardWork, h'.journal.trans h.journal⟩

theorem YardWork.of_lanes {s t : State} (h : YardOnly s t) (hl : t.lanes = s.lanes) : YardWork s t :=
  ⟨h, fun n => by unfold State.lane; rw [hl]; exact Lane.kept_refl _⟩

theorem QuietWork.of_lanes {s t : State} (h : YardOnly s t) (hl : t.lanes = s.lanes) (hj : t.journal = s.journal) :
    QuietWork s t := ⟨.of_lanes h hl, hj⟩

theorem YardWork.refl (s : State) : YardWork s s := .of_lanes (YardOnly.refl s) rfl

theorem QuietWork.refl (s : State) : QuietWork s s := .of_lanes (YardOnly.refl s) rfl rfl

theorem quiet_register (s : State) (r : Register) : QuietWork s { s with register := r } :=
  .of_lanes (yard_register s r) rfl rfl

theorem quiet_offerAll (s : State) (n : Notice) : QuietWork s (s.offerAll n) := .of_lanes (yard_offerAll s n) rfl rfl

theorem quiet_foldl {α : Type} (f : State → α → State) (hf : ∀ s a, QuietWork s (f s a)) (l : List α) (s : State) :
    QuietWork s (l.foldl f s) := by
  induction l generalizing s with
  | nil => exact .refl s
  | cons a l ih => exact (hf s a).trans (ih (f s a))

/-! ### Lanes -/

theorem quiet_setLane (s : State) (n : LaneId) (k : Lane) (hs : k.setup = (s.lane n).setup)
    (hb : k.setupBad = (s.lane n).setupBad) (hk : (s.lane n).kept k) : QuietWork s (s.setLane n k) := by
  refine ⟨⟨yard_setLane s n k hs hb, fun m => ?_⟩, rfl⟩
  by_cases h : m = n
  · subst h
    rw [setLane_lane_self]
    exact hk
  · rw [setLane_lane_ne _ _ h]
    exact Lane.kept_refl _

theorem quiet_applyLane (n : LaneId) (r : LaneStep) (s : State) (hs : (s.lane n).sameSite r.lane)
    (hg : (s.lane n).clearGuarded → r.lane.clearGuarded) : QuietWork s (applyLane n r s) := by
  refine ⟨⟨yard_applyLane n r s hs, fun m => ?_⟩, by rw [(applyLane_frame n r s).1]⟩
  by_cases h : m = n
  · subst h
    rw [applyLane_lane_self]
    exact kept_of_sameSite hs hg
  · rw [applyLane_lane_ne _ _ h]
    exact Lane.kept_refl _

theorem quiet_raiseLane (n : LaneId) (c : CauseKind) (s : State) : QuietWork s (raiseLane n c s) :=
  quiet_applyLane n _ s (raise_spec _ c).1 (clearGuarded_raise _ c)

theorem quiet_withdraw (n : LaneId) (p : Cause → Bool) (s : State) :
    QuietWork s (applyLane n ((s.lane n).withdraw p) s) :=
  quiet_applyLane n _ s (withdraw_spec _ p).1 (clearGuarded_withdraw _ p)

theorem quiet_withdrawLane (n : LaneId) (v : Nat) (s : State) : QuietWork s (withdrawLane n v s) :=
  quiet_withdraw n _ s

theorem quiet_raiseIfOccupied (n : LaneId) (c : CauseKind) (s : State) : QuietWork s (raiseIfOccupied n c s) := by
  unfold raiseIfOccupied
  split
  · exact quiet_raiseLane n c s
  · exact .refl s

/-! ### The journal -/

theorem work_writeRecord (t : Ticket) (s : State) : YardWork s (writeRecord t s) :=
  .of_lanes (yard_writeRecord t s) (by rw [(writeRecord_frame t s).1])

theorem work_fillAll (s : State) : YardWork s (fillAll s) := .of_lanes (yard_fillAll s) (by rw [fillAll_frame])

theorem work_releaseVisit (v : Visit) (s : State) : YardWork s (releaseVisit v s) :=
  (work_writeRecord _ s).trans (quiet_register _ _).toYardWork

/-! ### Captures and decks -/

/-- An outcome that is no failure can raise the lane, for the visit it weighs (R104, R113). -/
theorem work_handOutcome (n : LaneId) (w : CapOwner) (o : CapOutcome) (s : State) :
    YardWork s (handOutcome n w o s) := by
  cases o with
  | failed why => exact .of_lanes (yard_handOutcome n w _ s) (by rw [handOutcome_failed])
  | done r =>
    unfold handOutcome
    cases w with
    | visitIn v =>
      dsimp only
      split
      · exact .refl s
      · split
        · exact ((quiet_register s _).trans (quiet_raiseIfOccupied n _ _)).toYardWork
        · exact .refl s
    | visitOut v =>
      dsimp only
      split
      · exact .refl s
      · split
        · exact ((work_releaseVisit _ s).trans (quiet_raiseIfOccupied n _ _).toYardWork).trans (work_fillAll _)
        · exact .refl s
    | spot l => exact .refl s

theorem work_endCapture (d : DeckId) (o : CapOutcome) (s : State) : YardWork s (endCapture d o s) := by
  unfold endCapture
  split
  · exact .refl s
  · rename_i c _
    exact (YardWork.of_lanes (yard_soft s s.register (setAt s.units d ((s.unit d).ended c o)) s.journal _
      (offersOnly_offerCapture d c.owner o s.links)) rfl).trans (work_handOutcome _ _ _ _)

theorem quiet_endCapture (d : DeckId) (why : CapFail) (s : State) : QuietWork s (endCapture d (.failed why) s) := by
  obtain ⟨hlanes, hjournal⟩ := endCapture_failed d why s
  exact .of_lanes (yard_endCapture d _ s) hlanes hjournal

theorem quiet_endVisitCapture (d : DeckId) (v : Nat) (s : State) : QuietWork s (endVisitCapture d v s) := by
  unfold endVisitCapture
  split
  · exact .refl s
  · split
    · exact quiet_endCapture d _ s
    · exact .refl s

theorem quiet_deckChange (d : DeckId) (new : DeckState) (cause : WakeCause) (s : State) :
    QuietWork s (deckChange d new cause s) := by
  obtain ⟨_, _, _, _, hlanes, hjournal, _⟩ := deckChange_frame d new cause s
  exact .of_lanes (yard_deckChange d new cause s) hlanes hjournal

theorem quiet_leaveFault (d : DeckId) (s : State) : QuietWork s (leaveFault d s) := by
  unfold leaveFault
  split
  · exact quiet_deckChange _ _ _ s
  · exact .refl s

theorem quiet_enterFault (d : DeckId) (s : State) : QuietWork s (enterFault d s) := by
  unfold enterFault
  split
  · exact quiet_deckChange _ _ _ s
  · exact .refl s

theorem quiet_wakeForRequest (d : DeckId) (s : State) : QuietWork s (wakeForRequest d s) := by
  unfold wakeForRequest
  cases (s.deck d).state with
  | sleep => exact quiet_deckChange _ _ _ s
  | warming => exact .of_lanes (yard_setDeck s d _ rfl rfl) rfl rfl
  | active | fault | service | unused => exact .refl s

theorem quiet_startCapture (d : DeckId) (w : CapOwner) (s : State) : QuietWork s (startCapture d w s) :=
  ((quiet_endCapture d _ s).trans (.of_lanes (yard_setUnit _ d _) rfl rfl)).trans (quiet_wakeForRequest d _)

theorem quiet_becomeClosed (s : State) : QuietWork s (becomeClosed s) := by
  refine (quiet_register s _).trans (quiet_foldl _ (fun s d => ?_) _ _)
  split
  · exact quiet_deckChange _ _ _ s
  · exact .refl s

/-! ### Loop events -/

/-- A loop event (R75) once the deck and its capture unit have it, before the lane's barrier has. -/
def State.loopHeard (s : State) (n : LaneId) (i : LoopId) (occupied : Bool) : State :=
  captureLoopEvent n i occupied (deckLoopEvent n i occupied s)

theorem quiet_deckLoopEvent (d : DeckId) (i : LoopId) (b : Bool) (s : State) : QuietWork s (deckLoopEvent d i b s) := by
  unfold deckLoopEvent
  dsimp only
  split
  · split
    · exact quiet_deckChange _ _ _ s
    · exact .refl s
  · split
    · exact quiet_deckChange _ _ _ s
    · exact .refl s

theorem quiet_captureLoopEvent (d : DeckId) (i : LoopId) (b : Bool) (s : State) :
    QuietWork s (captureLoopEvent d i b s) := by
  unfold captureLoopEvent
  split
  · exact .refl s
  · split
    · exact quiet_endCapture _ _ s
    · exact .refl s

theorem quiet_loopHeard (s : State) (n : LaneId) (i : LoopId) (b : Bool) : QuietWork s (s.loopHeard n i b) :=
  (quiet_deckLoopEvent n i b s).trans (quiet_captureLoopEvent n i b _)

/-- The deck and the capture unit leave the lanes to the barrier machine. -/
theorem loopHeard_lanes (s : State) (n : LaneId) (i : LoopId) (b : Bool) : (s.loopHeard n i b).lanes = s.lanes := by
  have hdeck : (deckLoopEvent n i b s).lanes = s.lanes := by
    unfold deckLoopEvent
    dsimp only
    split
    · split
      · exact (deckChange_frame _ _ _ s).2.2.2.2.1
      · rfl
    · split
      · exact (deckChange_frame _ _ _ s).2.2.2.2.1
      · rfl
  have hunit : ∀ u : State, (captureLoopEvent n i b u).lanes = u.lanes := by
    intro u
    unfold captureLoopEvent
    split
    · rfl
    · split
      · exact (endCapture_failed _ _ u).1
      · rfl
  exact (hunit _).trans hdeck

theorem loopHeard_lane (s : State) (n m : LaneId) (i : LoopId) (b : Bool) : (s.loopHeard n i b).lane m = s.lane m := by
  unfold State.lane
  rw [loopHeard_lanes]

theorem loopEvent_eq (n : LaneId) (i : LoopId) (b f : Bool) (s : State) :
    loopEvent n i b f s = applyLane n ((s.lane n).loopEvent i b f) (s.loopHeard n i b) := by
  rw [← loopHeard_lane s n n i b]
  rfl

/-- A loop event whose level the loop already reads: it sets the guard of the CLEAR loop up, or keeps it. -/
theorem quiet_loopEvent {s u : State} {n : LaneId} {i : LoopId} {b : Bool} (f : Bool)
    (hu : YardOnly s u) (hj : u.journal = s.journal) (hother : ∀ m, m ≠ n → u.lane m = s.lane m)
    (hword : (u.lane n).word = (s.lane n).word) (hlevel : i = .clear → (u.lane n).clearLoop.occupied = b)
    (hdeck : i = .deck → (s.lane n).clearGuarded → (u.lane n).clearGuarded) :
    QuietWork s (loopEvent n i b f u) := by
  refine ⟨⟨hu.trans (yard_loopEvent n i b f u), fun m => ?_⟩, ?_⟩
  · by_cases h : m = n
    · subst h
      rw [loopEvent_eq, applyLane_lane_self]
      obtain ⟨⟨_, _, _, _, _, _, _, _, _, hsame⟩, _⟩ := laneLoopEvent_spec (u.lane m) i b f
      refine ⟨hsame.trans hword, fun hg => clearGuarded_loopEvent _ i b f hlevel ?_⟩
      cases i with
      | deck => exact .inr (hdeck rfl hg)
      | clear =>
        cases b with
        | true => exact .inl ⟨rfl, rfl⟩
        | false => exact .inr (clearGuarded_of_clear _ (hlevel rfl))
    · rw [loopEvent_eq, applyLane_lane_ne _ _ h, loopHeard_lane, hother m h]
      exact Lane.kept_refl _
  · rw [loopEvent_eq, (applyLane_frame _ _ _).1]
    exact (quiet_loopHeard u n i b).journal.trans hj

/-! ### The close of an event -/

/-- What an event or a request is seen to do to the yard: the words shown (R91), the barriers safe (R77). -/
structure YardShown (s t : State) : Prop where
  yard : YardOnly s t
  words : s.showsWords t
  safe : s.barriersSafe → t.barriersSafe

theorem showsWords_refl (s : State) : s.showsWords s := fun h n => ⟨h n, fun hc => absurd rfl hc⟩

theorem YardShown.refl (s : State) : YardShown s s := ⟨YardOnly.refl s, showsWords_refl s, id⟩

/-- Once start-up has ended the barriers are safe where every lane is. -/
theorem barriersSafe_of_running {t : State} (hp : t.power.phase ≠ .starting)
    (h : ∀ n, (t.lane n).shown ∧ (t.lane n).clearGuarded) : t.barriersSafe := ⟨h, fun hs => absurd hs hp⟩

/-- The close of an event shows the outputs and the words, and keeps the guards. -/
theorem YardWork.shown {s u : State} (h : YardWork s u) (hp : s.power.phase ≠ .starting) (m : YardMode) :
    YardShown s (finish m u) := by
  have hyard := h.yard.trans (yard_finish m u)
  refine ⟨hyard, finish_showsWords m s u h.yard (fun n => (h.lanes n).1), fun ⟨hlanes, _⟩ => ?_⟩
  refine barriersSafe_of_running (hyard.power ▸ hp) (fun n => ?_)
  obtain ⟨hshown, w, hlane⟩ := finish_lane m u n
  refine ⟨hshown, ?_⟩
  rw [hlane]
  exact (h.lanes n).2 (hlanes n).2

/-- The journal is the same, its LOW mark apart. -/
def State.lowOnly (s t : State) : Prop := t.journal = { s.journal with low := t.journal.low }

theorem lowOnly_of_journal {s t : State} (h : t.journal = s.journal) : s.lowOnly t := by
  unfold State.lowOnly
  rw [h]

theorem QuietWork.lowOnly {s u : State} (h : QuietWork s u) (m : YardMode) : s.lowOnly (finish m u) := by
  unfold State.lowOnly
  rw [← h.journal]
  exact finish_journal m u

theorem phase_of_up {s : State} (h : s.up = true) : s.power.phase ≠ .starting := by
  simp only [State.up, Bool.and_eq_true, beq_iff_eq] at h
  rw [h.2]
  decide

/-- Everything an event of the yard can do: nothing, or its work and the close. -/
theorem yardEvent_cases {now : State → Bool} {f : State → State} {s t : State} (h : yardEvent now f s = .next t) :
    t = s ∨ s.up = true ∧ now s = true ∧ t = finish s.register.mode (f s) := by
  unfold yardEvent whenUp at h
  cases h
  by_cases hu : s.up = true
  · by_cases hn : now s = true
    · exact .inr ⟨hu, hn, by simp [hu, hn]⟩
    · exact .inl (by simp [hn])
  · exact .inl (by simp [hu])

theorem yardEvent_shown {now : State → Bool} {f : State → State} {s t : State} (hf : now s = true → YardWork s (f s))
    (h : yardEvent now f s = .next t) : YardShown s t := by
  obtain rfl | ⟨hu, hn, rfl⟩ := yardEvent_cases h
  · exact .refl _
  · exact (hf hn).shown (phase_of_up hu) _

theorem yardEvent_lowOnly {now : State → Bool} {f : State → State} {s t : State} (hf : now s = true → QuietWork s (f s))
    (h : yardEvent now f s = .next t) : s.lowOnly t := by
  obtain rfl | ⟨_, hn, rfl⟩ := yardEvent_cases h
  · exact rfl
  · exact (hf hn).lowOnly _

end Sys2Proof.Machine
end

section
/-! PROOF. The events of the yard: readings, periods, timers, loops and limits leave what lies outside the yard, show
the status words and keep the barriers safe (R77, R91; 95_what_each_step_holds.md). -/

namespace Sys2Proof.Machine

/-! ### Input pins -/

/-- The lane differs in its input pins and debounces alone: its loops read as before, and the rest is the same. -/
def Lane.sameSeen (k k' : Lane) : Prop :=
  ∃ p q a b, p.occupied = k.deckLoop.occupied ∧ p.fault = k.deckLoop.fault ∧ q.occupied = k.clearLoop.occupied ∧
    q.fault = k.clearLoop.fault ∧ k' = { k with deckLoop := p, clearLoop := q, up := a, down := b }

theorem sameSeen_setLoop (k : Lane) (i : LoopId) (p : Loop) (ho : p.occupied = (k.loop i).occupied)
    (hf : p.fault = (k.loop i).fault) : k.sameSeen (k.setLoop i p) := by
  cases i with
  | deck => exact ⟨p, k.clearLoop, k.up, k.down, ho, hf, rfl, rfl, rfl⟩
  | clear => exact ⟨k.deckLoop, p, k.up, k.down, rfl, rfl, ho, hf, rfl⟩

theorem sameSeen_setLimit (k : Lane) (i : LimitId) (p : Limit) : k.sameSeen (k.setLimit i p) := by
  cases i with
  | up => exact ⟨k.deckLoop, k.clearLoop, p, k.down, rfl, rfl, rfl, rfl, rfl⟩
  | down => exact ⟨k.deckLoop, k.clearLoop, k.up, p, rfl, rfl, rfl, rfl, rfl⟩

/-- What is shown of a lane does not depend on its pins, nor does the safety of its barrier. -/
theorem sameSeen_spec {k k' : Lane} (h : k.sameSeen k') :
    k'.setup = k.setup ∧ k'.setupBad = k.setupBad ∧ k'.barrier = k.barrier ∧ k'.settled = k.settled ∧
      k'.word = k.word ∧ (k.shown → k'.shown) ∧ (k.clearGuarded → k'.clearGuarded) := by
  obtain ⟨p, q, a, b, _, _, ho, _, rfl⟩ := h
  refine ⟨rfl, rfl, rfl, rfl, rfl, id, fun hg hq => hg ?_⟩
  rw [← ho]
  exact hq

theorem statusWord_setLane {s : State} {n : LaneId} {k : Lane} (h : (s.lane n).sameSeen k) (m : LaneId) :
    statusWord (s.setLane n k) m = statusWord s m := by
  by_cases e : m = n
  · subst e
    obtain ⟨p, q, a, b, h1, h2, h3, h4, rfl⟩ := h
    simp [statusWord, State.disabled, h1, h2, h3, h4]
  · simp [statusWord, State.disabled, setLane_lane_ne _ _ e]

/-- A change of pins alone: no event closes, and none is needed. -/
theorem sameSeen_shown {s : State} {n : LaneId} {k : Lane} (h : (s.lane n).sameSeen k) :
    YardShown s (s.setLane n k) := by
  obtain ⟨hsetup, hbad, hbarrier, hsettled, hword, hshown, hguard⟩ := sameSeen_spec h
  have hwords : ∀ m, ((s.setLane n k).lane m).word = (s.lane m).word := by
    intro m
    by_cases e : m = n
    · rw [e, setLane_lane_self, hword]
    · rw [setLane_lane_ne _ _ e]
  refine ⟨yard_setLane s n k hsetup hbad, fun hw m => ⟨?_, fun hc => absurd (hwords m) hc⟩,
    fun ⟨hlanes, hstart⟩ => ⟨fun m => ?_, fun hp m => ?_⟩⟩
  · rw [wordShown_iff, hwords, statusWord_setLane h]
    exact hw m
  · by_cases e : m = n
    · rw [e, setLane_lane_self]
      exact ⟨hshown (hlanes n).1, hguard (hlanes n).2⟩
    · rw [setLane_lane_ne _ _ e]
      exact hlanes m
  · by_cases e : m = n
    · rw [e, setLane_lane_self, hbarrier, hsettled]
      exact hstart hp n
    · rw [setLane_lane_ne _ _ e]
      exact hstart hp m

/-! ### The work of the events -/

theorem work_examineSample (d : DeckId) (zl : Bool) (s : State) : YardWork s (examineSample d zl s) := by
  unfold examineSample
  split
  · split
    · exact work_endCapture _ _ s
    · exact .refl s
  · exact .refl s

theorem work_sampleIfReady (d : DeckId) (s : State) : YardWork s (sampleIfReady d s) := by
  by_cases h : s.sampleDue d
  · refine ⟨yard_sampleIfReady d s, ?_⟩
    rw [sampleIfReady_due h]
    exact (work_examineSample d _ (s.sampled d)).lanes
  · rw [sampleIfReady_not_due h]
    exact .refl s

theorem work_takeReading (c : ChanId) (raw : Int) (s : State) : YardWork s (takeReading c raw s) := by
  have hset : YardWork s (s.setChan c ((s.chan c).accept (s.supervised (s.chan c)) raw)) :=
    .of_lanes (yard_setChan s c _ rfl) rfl
  unfold takeReading
  dsimp only
  split
  · exact hset
  · refine YardWork.trans ?_ (work_sampleIfReady _ _)
    split
    · exact hset.trans (quiet_leaveFault _ _).toYardWork
    · exact hset

theorem quiet_tellLost (c : ChanId) (s : State) : QuietWork s (tellLost c s) := by
  unfold tellLost
  split
  · exact .refl s
  · exact quiet_enterFault _ s

theorem quiet_endPeriod (s : State) : QuietWork s (endPeriod s) := by
  have hjudged : QuietWork s s.periodJudged := by
    refine .of_lanes (yard_channels s _ _ (fun c => ?_)) rfl rfl
    rw [get_map]
    exact (endPeriod_frame _ _).2.2
  rw [endPeriod_eq]
  exact hjudged.trans (quiet_foldl _ (fun u c => quiet_tellLost c u) _ _)

theorem loopDebounced_of_running {s : State} {n : LaneId} {i : LoopId} {x : Debounce}
    (h : ((s.lane n).loop i).debounce = some x) :
    loopDebounced n i s = loopEvent n i x.target false (s.setLoop n i (((s.lane n).loop i).settled x.target)) := by
  unfold loopDebounced
  dsimp only
  rw [h]

/-- A loop that takes a level, and the event of that level. -/
theorem quiet_loopTaken {s u : State} {n : LaneId} {i : LoopId} {b : Bool} (p : Loop) (f : Bool)
    (hp : p.occupied = b) (hu : YardOnly (s.setLoop n i p) u) (hj : u.journal = s.journal)
    (hl : u.lanes = (s.setLoop n i p).lanes) : QuietWork s (loopEvent n i b f u) := by
  have hlane : ∀ m, u.lane m = (s.setLoop n i p).lane m := fun m => by unfold State.lane; rw [hl]
  have hself : u.lane n = (s.lane n).setLoop i p := (hlane n).trans (setLane_lane_self s n _)
  have hset : YardOnly s (s.setLoop n i p) := yard_setLane s n _ (by cases i <;> rfl) (by cases i <;> rfl)
  refine quiet_loopEvent f (hset.trans hu) hj (fun m hm => (hlane m).trans (setLane_lane_ne s _ hm)) ?_ ?_ ?_
  · rw [hself]
    cases i <;> rfl
  · rintro rfl
    rw [hself]
    exact hp
  · rintro rfl
    rw [hself]
    exact id

theorem quiet_loopDebounced (n : LaneId) (i : LoopId) (s : State) : QuietWork s (loopDebounced n i s) := by
  cases h : ((s.lane n).loop i).debounce with
  | none =>
    unfold loopDebounced
    dsimp only
    rw [h]
    exact .refl s
  | some x =>
    rw [loopDebounced_of_running h]
    exact quiet_loopTaken _ false rfl (YardOnly.refl _) rfl rfl

theorem quiet_faultAsserted (n : LaneId) (i : LoopId) (s : State) : QuietWork s (faultAsserted n i s) := by
  have htold := yard_offerAll (s.setLoop n i ((s.lane n).loop i).faultAssert) (.laneEvent n (.loopFault i))
  unfold faultAsserted
  dsimp only
  split
  · rename_i ho
    refine QuietWork.trans (quiet_setLane s n _ (by cases i <;> rfl) (by cases i <;> rfl) ?_) (quiet_offerAll _ _)
    cases i with
    | deck => exact ⟨rfl, id⟩
    | clear => exact ⟨rfl, fun hg _ => hg ho⟩
  · exact quiet_loopTaken _ true rfl htold rfl rfl

theorem quiet_faultCleared (n : LaneId) (i : LoopId) (s : State) : QuietWork s (faultCleared n i s) := by
  refine quiet_setLane s n _ (by cases i <;> rfl) (by cases i <;> rfl) ?_
  cases i <;> exact ⟨rfl, id⟩

theorem limitDebounced_of_running {s : State} {n : LaneId} {i : LimitId} {x : Debounce}
    (h : ((s.lane n).limit i).debounce = some x) :
    limitDebounced n i s =
      applyLane n (((s.lane n).setLimit i ⟨((s.lane n).limit i).level, x.target, none⟩).limitEvent i) s := by
  unfold limitDebounced
  dsimp only
  rw [h]

/-- A limit that takes a level: the lane's other inputs, outputs and cause are those before the event. -/
theorem quiet_limitDebounced (n : LaneId) (i : LimitId) (s : State) : QuietWork s (limitDebounced n i s) := by
  cases h : ((s.lane n).limit i).debounce with
  | none =>
    unfold limitDebounced
    dsimp only
    rw [h]
    exact .refl s
  | some x =>
    rw [limitDebounced_of_running h]
    generalize hk : (s.lane n).setLimit i ⟨((s.lane n).limit i).level, x.target, none⟩ = k
    obtain ⟨hsetup, hbad, _, _, hword, _, hguard⟩ := sameSeen_spec (hk ▸ sameSeen_setLimit (s.lane n) i _)
    have hset : QuietWork s (s.setLane n k) := quiet_setLane s n k hsetup hbad ⟨hword, hguard⟩
    obtain ⟨hsite, _, _, _, hg⟩ := limitEvent_spec k i
    have hlane : (s.setLane n k).lane n = k := setLane_lane_self s n k
    have hevent : QuietWork (s.setLane n k) (applyLane n (k.limitEvent i) (s.setLane n k)) :=
      quiet_applyLane n _ _ (hlane.symm ▸ hsite) (hlane.symm ▸ hg)
    have hsame : applyLane n (k.limitEvent i) (s.setLane n k) = applyLane n (k.limitEvent i) s := by
      unfold applyLane
      rw [setLane_setLane]
    exact hsame ▸ hset.trans hevent

theorem quiet_travelExpired (n : LaneId) (s : State) : QuietWork s (applyLane n (s.lane n).travelExpired s) := by
  obtain ⟨hsite, _, _, _, hg⟩ := travelExpired_spec (s.lane n)
  exact quiet_applyLane n _ s hsite hg

theorem quiet_settleExpired {n : LaneId} {s : State} (h : (s.lane n).settle.isSome = true) :
    QuietWork s (applyLane n (s.lane n).settleExpired s) := by
  obtain ⟨hsite, _, _, _, _, _, _, _, hg⟩ := settleExpired_spec (s.lane n)
  exact quiet_applyLane n _ s hsite (fun hguard => hg hguard h)

theorem quiet_resolve (n : LaneId) (s : State) : QuietWork s (applyLane n (s.lane n).resolve s) := by
  obtain ⟨hsite, _, _, _, _, _, hg⟩ := resolve_spec (s.lane n)
  exact quiet_applyLane n _ s hsite hg

/-! ### The events as commands -/

/-- The events of the yard that write no record: periods, timers, loops and limits. -/
def isYardEvent : Instr → Bool
  | .periodTimerExpiry | .warmUpTimerExpiry _ | .idleTimerExpiry _ | .stableTimeoutExpiry _ => true
  | .loopLevelChange _ _ _ | .loopDebounceExpiry _ _ => true
  | .detectorFaultAsserted _ _ | .detectorFaultCleared _ _ => true
  | .limitInputChange _ _ _ | .limitDebounceExpiry _ _ => true
  | .travelTimerExpiry _ | .settleTimerExpiry _ | .resolutionTimerExpiry _ => true
  | _ => false

theorem exec_warmUpTimerExpiry (d : DeckId) (s : State) :
    exec (.warmUpTimerExpiry d) s =
      yardEvent (fun s => (s.deck d).warmUp.isSome && (s.deck d).state == .warming) (deckChange d .active .none) s :=
  rfl

theorem exec_idleTimerExpiry (d : DeckId) (s : State) :
    exec (.idleTimerExpiry d) s =
      yardEvent (fun s => (s.deck d).idle.isSome && (s.deck d).state == .active) (deckChange d .sleep .none) s := rfl

theorem exec_stableTimeoutExpiry (d : DeckId) (s : State) :
    exec (.stableTimeoutExpiry d) s =
      yardEvent (fun s => (s.unit d).timing) (endCapture d (.failed .unstable)) s := rfl

theorem exec_loopLevelChange (n : LaneId) (i : LoopId) (level : Bool) (s : State) :
    exec (.loopLevelChange n i level) s =
      .next (s.setLane n ((s.lane n).setLoop i
        (if s.up then ((s.lane n).loop i).levelChange level (s.lane n).setup.loopFilter
         else { (s.lane n).loop i with level := level }))) := rfl

theorem exec_loopDebounceExpiry (n : LaneId) (i : LoopId) (s : State) :
    exec (.loopDebounceExpiry n i) s =
      yardEvent (fun s => ((s.lane n).loop i).debounce.isSome) (loopDebounced n i) s := rfl

theorem exec_detectorFaultAsserted_up {s : State} (hu : s.up = true) (n : LaneId) (i : LoopId) :
    exec (.detectorFaultAsserted n i) s =
      yardEvent (fun _ => !((s.lane n).loop i).faultIn) (faultAsserted n i) s := if_pos hu

theorem exec_detectorFaultAsserted_down {s : State} (hu : ¬s.up = true) (n : LaneId) (i : LoopId) :
    exec (.detectorFaultAsserted n i) s =
      .next (s.setLane n ((s.lane n).setLoop i { (s.lane n).loop i with faultIn := true })) := if_neg hu

theorem exec_detectorFaultCleared_up {s : State} (hu : s.up = true) (n : LaneId) (i : LoopId) :
    exec (.detectorFaultCleared n i) s =
      yardEvent (fun _ => ((s.lane n).loop i).faultIn) (faultCleared n i) s := if_pos hu

theorem exec_detectorFaultCleared_down {s : State} (hu : ¬s.up = true) (n : LaneId) (i : LoopId) :
    exec (.detectorFaultCleared n i) s =
      .next (s.setLane n ((s.lane n).setLoop i { (s.lane n).loop i with faultIn := false })) := if_neg hu

theorem exec_limitInputChange (n : LaneId) (i : LimitId) (level : Bool) (s : State) :
    exec (.limitInputChange n i level) s =
      .next (s.setLane n ((s.lane n).setLimit i
        (if s.up then ((s.lane n).limit i).levelChange level else { (s.lane n).limit i with level := level }))) := rfl

theorem exec_limitDebounceExpiry (n : LaneId) (i : LimitId) (s : State) :
    exec (.limitDebounceExpiry n i) s =
      yardEvent (fun s => ((s.lane n).limit i).debounce.isSome) (limitDebounced n i) s := rfl

theorem exec_travelTimerExpiry (n : LaneId) (s : State) :
    exec (.travelTimerExpiry n) s =
      yardEvent (fun s => (s.lane n).travel.isSome) (fun s => applyLane n (s.lane n).travelExpired s) s := rfl

theorem exec_settleTimerExpiry (n : LaneId) (s : State) :
    exec (.settleTimerExpiry n) s =
      yardEvent (fun s => (s.lane n).settle.isSome) (fun s => applyLane n (s.lane n).settleExpired s) s := rfl

theorem exec_resolutionTimerExpiry (n : LaneId) (s : State) :
    exec (.resolutionTimerExpiry n) s =
      yardEvent (fun s => (s.lane n).resolution.isSome && (s.lane n).barrier == .unresolved)
        (fun s => applyLane n (s.lane n).resolve s) s := rfl

/-- A command that is an event of the yard, in which quiet work is done. -/
theorem quietEvent_shown {i : Instr} {now : State → Bool} {f : State → State} {s t : State}
    (he : exec i s = yardEvent now f s) (hf : now s = true → QuietWork s (f s)) (h : exec i s = .next t) :
    YardShown s t ∧ s.lowOnly t := by
  rw [he] at h
  exact ⟨yardEvent_shown (fun hn => (hf hn).toYardWork) h, yardEvent_lowOnly hf h⟩

theorem cellReading_shown {c : ChanId} {raw : BitVec 24} {ok : Bool} {s t : State}
    (h : exec (.cellReading c raw ok) s = .next t) : YardShown s t := by
  rw [exec_cellReading] at h
  exact yardEvent_shown (fun _ => work_takeReading c _ s) h

/-- A command that changes input pins: no event is closed for it. -/
theorem pinEvent_shown {i : Instr} {s t : State} {n : LaneId} {k : Lane} (he : exec i s = .next (s.setLane n k))
    (hk : (s.lane n).sameSeen k) (h : exec i s = .next t) : YardShown s t ∧ s.lowOnly t := by
  rw [he] at h
  cases h
  exact ⟨sameSeen_shown hk, rfl⟩

theorem loopLevelChange_seen (p : Loop) (level : Bool) (ms : Nat) :
    (p.levelChange level ms).occupied = p.occupied ∧ (p.levelChange level ms).fault = p.fault := by
  unfold Loop.levelChange
  split <;> exact ⟨rfl, rfl⟩

theorem isYardEvent_shown {i : Instr} (hi : isYardEvent i = true) {s t : State} (h : exec i s = .next t) :
    YardShown s t ∧ s.lowOnly t := by
  cases i with
  | periodTimerExpiry => exact quietEvent_shown (exec_periodTimerExpiry s) (fun _ => quiet_endPeriod s) h
  | warmUpTimerExpiry d => exact quietEvent_shown (exec_warmUpTimerExpiry d s) (fun _ => quiet_deckChange d _ _ s) h
  | idleTimerExpiry d => exact quietEvent_shown (exec_idleTimerExpiry d s) (fun _ => quiet_deckChange d _ _ s) h
  | stableTimeoutExpiry d => exact quietEvent_shown (exec_stableTimeoutExpiry d s) (fun _ => quiet_endCapture d _ s) h
  | loopLevelChange n i level =>
    refine pinEvent_shown (exec_loopLevelChange n i level s) (sameSeen_setLoop (s.lane n) i _ ?_ ?_) h
    · split
      · exact (loopLevelChange_seen _ _ _).1
      · rfl
    · split
      · exact (loopLevelChange_seen _ _ _).2
      · rfl
  | loopDebounceExpiry n i =>
    exact quietEvent_shown (exec_loopDebounceExpiry n i s) (fun _ => quiet_loopDebounced n i s) h
  | detectorFaultAsserted n i =>
    by_cases hu : s.up = true
    · exact quietEvent_shown (exec_detectorFaultAsserted_up hu n i) (fun _ => quiet_faultAsserted n i s) h
    · exact pinEvent_shown (exec_detectorFaultAsserted_down hu n i) (sameSeen_setLoop (s.lane n) i _ rfl rfl) h
  | detectorFaultCleared n i =>
    by_cases hu : s.up = true
    · exact quietEvent_shown (exec_detectorFaultCleared_up hu n i) (fun _ => quiet_faultCleared n i s) h
    · exact pinEvent_shown (exec_detectorFaultCleared_down hu n i) (sameSeen_setLoop (s.lane n) i _ rfl rfl) h
  | limitInputChange n i level =>
    exact pinEvent_shown (exec_limitInputChange n i level s) (sameSeen_setLimit (s.lane n) i _) h
  | limitDebounceExpiry n i =>
    exact quietEvent_shown (exec_limitDebounceExpiry n i s) (fun _ => quiet_limitDebounced n i s) h
  | travelTimerExpiry n =>
    exact quietEvent_shown (exec_travelTimerExpiry n s) (fun _ => quiet_travelExpired n s) h
  | settleTimerExpiry n =>
    exact quietEvent_shown (exec_settleTimerExpiry n s) (fun hn => quiet_settleExpired hn) h
  | resolutionTimerExpiry n =>
    exact quietEvent_shown (exec_resolutionTimerExpiry n s) (fun _ => quiet_resolve n s) h
  | _ => cases hi

/-- What an event of the yard leaves to the links (R91, 95_what_each_step_holds.md). -/
theorem YardShown.leaves {s t : State} (h : YardShown s t) :
    s.keepsFixed t ∧ (∀ l, (s.link l).sameTraffic (t.link l)) ∧ s.showsWords t :=
  ⟨h.yard.keepsFixed, fun l => h.yard.links.sameTraffic l, h.words⟩

/-- Settles O59: the work of each event, and its close. -/
theorem yardEventsLeaveRestAlone : Obligations.YardEventsLeaveRestAlone := by
  have leaves : ∀ {s t : State} {i : Instr}, exec i s = .next t → isYardEvent i = true →
      s.keepsFixed t ∧ (∀ l, (s.link l).sameTraffic (t.link l)) ∧ s.showsWords t ∧
        t.journal = { s.journal with low := t.journal.low } := by
    intro s t i h hi
    obtain ⟨hshown, hlow⟩ := isYardEvent_shown hi h
    obtain ⟨hfixed, htraffic, hwords⟩ := hshown.leaves
    exact ⟨hfixed, htraffic, hwords, hlow⟩
  intro s t i h
  refine ⟨?_, ?_⟩
  · rintro c raw ok rfl
    exact (cellReading_shown h).leaves
  · rintro (rfl | ⟨d, rfl | rfl | rfl⟩ | ⟨n, lp, rfl | rfl | rfl⟩ | ⟨n, lp, b, rfl⟩ | ⟨n, lm, rfl⟩ | ⟨n, lm, b, rfl⟩ |
      ⟨n, rfl | rfl | rfl⟩) <;> exact leaves h rfl

end Sys2Proof.Machine
end

section
/-! PROOF. The requests on visits, barriers and decks leave what lies outside the yard and the other links, show the
status words and keep the barriers safe (R77, R91; 95_what_each_step_holds.md). -/

namespace Sys2Proof.Machine

/-! ### A request and its link -/

/-- What a request of one link is seen to do: the yard is as its words and barriers show, the other links' traffic
stays. -/
structure RequestShown (l : LinkId) (s t : State) : Prop where
  fixed : s.keepsFixed t
  words : s.showsWords t
  traffic : ∀ m, m ≠ l → (s.link m).sameTraffic (t.link m)
  safe : s.barriersSafe → t.barriersSafe

/-- The link keeps its speed, role and mask. -/
def LinkState.sameStraps (k k' : LinkState) : Prop := k'.speed = k.speed ∧ k'.role = k.role ∧ k'.mask = k.mask

theorem sameTraffic_refl (k : LinkState) : k.sameTraffic k := ⟨rfl, rfl, fun _ => rfl⟩

theorem keepsFixed_setLink {s t : State} {l : LinkId} {k : LinkState} (h : s.keepsFixed t)
    (hk : (t.link l).sameStraps k) : s.keepsFixed (t.setLink l k) := by
  obtain ⟨h1, h2, h3, h4, h5, h6, h7, h8, hlinks⟩ := h
  refine ⟨h1, h2, h3, h4, h5, h6, h7, h8, fun m => ?_⟩
  by_cases e : m = l
  · subst e
    obtain ⟨hspeed, hrole, hmask⟩ := hk
    rw [setLink_link_self, hspeed, hrole, hmask]
    exact hlinks m
  · rw [setLink_link_ne _ _ e]
    exact hlinks m

/-- Nothing but the requesting link changes. -/
theorem RequestShown.of_setLink {s : State} {l : LinkId} {k : LinkState} (hk : (s.link l).sameStraps k) :
    RequestShown l s (s.setLink l k) where
  fixed := keepsFixed_setLink (YardOnly.refl s).keepsFixed hk
  words := fun hw n => ⟨hw n, fun hc => absurd rfl hc⟩
  traffic := fun m hm => by rw [setLink_link_ne _ _ hm]; exact sameTraffic_refl _
  safe := id

theorem RequestShown.refl (l : LinkId) (s : State) : RequestShown l s s := by
  have h := RequestShown.of_setLink (s := s) (l := l) (k := s.link l) ⟨rfl, rfl, rfl⟩
  rwa [setLink_same] at h

/-- A request handled, and its reply. -/
theorem YardShown.answered {s u : State} {l : LinkId} {code tag : Byte}
    (h : YardShown (s.handling l code tag) u) (r : Reply) :
    RequestShown l s (u.setLink l ((u.link l).answer r)) := by
  obtain ⟨_, hrole, hmask, hspeed, _⟩ := answer_spec (u.link l) r
  have htake : (s.link l).sameStraps ((s.handling l code tag).link l) := by
    rw [State.handling, setLink_link_self]
    exact ⟨rfl, rfl, rfl⟩
  have hother : ∀ m, m ≠ l → (s.handling l code tag).link m = s.link m := fun m hm => setLink_link_ne s _ hm
  have hfixed : s.keepsFixed u := by
    obtain ⟨h1, h2, h3, h4, h5, h6, h7, h8, hlinks⟩ := h.yard.keepsFixed
    refine ⟨h1, h2, h3, h4, h5, h6, h7, h8, fun m => ?_⟩
    obtain ⟨g1, g2, g3⟩ := hlinks m
    by_cases e : m = l
    · subst e
      obtain ⟨hs, hr, hm⟩ := htake
      exact ⟨g1.trans hs, g2.trans hr, g3.trans hm⟩
    · rw [hother m e] at g1 g2 g3
      exact ⟨g1, g2, g3⟩
  refine ⟨keepsFixed_setLink hfixed ⟨hspeed, hrole, hmask⟩, fun hw n => ?_, fun m hm => ?_, fun hs => h.safe hs⟩
  · obtain ⟨hshown, htold⟩ := h.words hw n
    refine ⟨hshown, fun hc m => ?_⟩
    have ht := htold hc m
    by_cases e : m = l
    · subst e
      obtain ⟨_, hr, hm⟩ := htake
      rw [setLink_link_self]
      exact fun hk => answer_keeps _ _ _ (told_of_fixed _ _ _ _ hr hm ht hk)
    · rw [hother m e] at ht
      rw [setLink_link_ne _ _ e]
      exact ht
  · rw [setLink_link_ne _ _ hm, ← hother m hm]
    exact h.yard.links.sameTraffic m

theorem turnAway_straps (k : LinkState) (code tag : Byte) : k.sameStraps (k.turnAway code tag) := by
  unfold LinkState.turnAway
  dsimp only
  split
  · exact ⟨rfl, rfl, rfl⟩
  · exact ⟨kick_speed _, kick_role _, kick_mask _⟩

/-- Everything a received frame can do (R184 to R186): nothing, a BUSY on its link, a refusal, or its body; and where
start-up has not ended it is refused. -/
theorem request_cases {α : Type} (l : LinkId) (code tag : Byte) (allowed : Role → Bool) (fields : Option α)
    (body : α → State → Answer) (s : State) :
    request l code tag allowed fields body s = s ∨
      (∃ k, (s.link l).sameStraps k ∧ request l code tag allowed fields body s = s.setLink l k) ∨
      s.power.phase ≠ .starting ∧ ∃ x r, request l code tag allowed fields body s =
        (body x (s.handling l code tag)).state.setLink l
          (((body x (s.handling l code tag)).state.link l).answer r) := by
  unfold request
  split
  · exact .inl rfl
  · split
    · exact .inr (.inl ⟨_, turnAway_straps _ _ _, rfl⟩)
    · have hrefused : ∀ st, ∃ k, (s.link l).sameStraps k ∧
          (refuse st (s.handling l code tag)).state.setLink l
            (((refuse st (s.handling l code tag)).state.link l).answer ⟨tag, code, st, []⟩) = s.setLink l k := by
        intro st
        obtain ⟨_, hrole, hmask, hspeed, _⟩ := answer_spec ((s.handling l code tag).link l) ⟨tag, code, st, []⟩
        rw [State.handling, setLink_link_self] at hrole hmask hspeed
        exact ⟨_, ⟨hspeed, hrole, hmask⟩, by simp [refuse, State.handling]⟩
      dsimp only
      unfold handle
      split
      · exact .inr (.inl (hrefused .starting))
      · rename_i hp
        cases fields with
        | none => exact .inr (.inl (hrefused .badRequest))
        | some x =>
          dsimp only
          split
          · exact .inr (.inr ⟨hp, x, _, rfl⟩)
          · exact .inr (.inl (hrefused .notPermitted))

section
variable {α : Type} {body : α → State → Answer} (l : LinkId) (code tag : Byte) (allowed : Role → Bool)
  (fields : Option α) (s : State)

theorem request_shown (hbody : ∀ x u, u.power.phase ≠ .starting → YardShown u (body x u).state) :
    RequestShown l s (request l code tag allowed fields body s) := by
  rcases request_cases l code tag allowed fields body s with e | ⟨k, hk, e⟩ | ⟨hp, x, r, e⟩
  · rw [e]
    exact .refl l s
  · rw [e]
    exact .of_setLink hk
  · rw [e]
    exact (hbody x (s.handling l code tag) hp).answered r

theorem request_lowOnly (hbody : ∀ x u, State.lowOnly u (body x u).state) :
    s.lowOnly (request l code tag allowed fields body s) := by
  rcases request_cases l code tag allowed fields body s with e | ⟨k, _, e⟩ | ⟨_, x, r, e⟩
  · rw [e]
    rfl
  · rw [e]
    rfl
  · rw [e]
    exact hbody x _

end

end Sys2Proof.Machine
end

section
/-! PROOF. The bodies of the requests on visits, barriers, decks and the yard mode: each refuses, or does its work on
the yard and closes the event. -/

namespace Sys2Proof.Machine

/-- A body's answer: nothing has changed, or work of a kind is done and its event closed. -/
def Answer.closes (a : Answer) (s : State) (P : State → Prop) : Prop :=
  a.state = s ∨ ∃ u, P u ∧ a.state = finish s.register.mode u

section
variable {s : State} {P : State → Prop}

theorem closes_refuse (st : Status) : (refuse st s).closes s P := .inl rfl

theorem closes_taken {u : State} (h : P u) (st : Status) (data : List Byte) : (taken s u st data).closes s P :=
  .inr ⟨u, h, rfl⟩

theorem closes_checked (checks : List (Bool × Status)) {go : Answer} (h : go.closes s P) :
    (checked checks s go).closes s P := by
  unfold checked
  split
  · exact closes_refuse _
  · exact h

theorem closes_shown {a : Answer} (h : a.closes s (YardWork s)) (hp : s.power.phase ≠ .starting) :
    YardShown s a.state := by
  obtain e | ⟨u, hu, e⟩ := h
  · rw [e]
    exact .refl s
  · rw [e]
    exact hu.shown hp _

theorem closes_quiet {a : Answer} (h : a.closes s (QuietWork s)) :
    (s.power.phase ≠ .starting → YardShown s a.state) ∧ s.lowOnly a.state := by
  obtain e | ⟨u, hu, e⟩ := h
  · rw [e]
    exact ⟨fun _ => .refl s, rfl⟩
  · rw [e]
    exact ⟨fun hp => hu.toYardWork.shown hp _, hu.lowOnly _⟩

end

/-! ### Visits -/

/-- The register changed, and one notice offered. -/
theorem quiet_registerTold (s : State) (r : Register) (x : Notice) :
    QuietWork s { s with register := r, links := offerAll s.links x } :=
  .of_lanes (yard_soft s r s.units s.journal _ (offersOnly_offerAll _ _)) rfl rfl

theorem quiet_appendVisit (n : LaneId) (v : Visit) (s : State) : QuietWork s (appendVisit n v s) :=
  quiet_registerTold s _ _

theorem admitBody_closes (l : LinkId) (f : AdmitFields) (s : State) : (admitBody l f s).closes s (QuietWork s) := by
  unfold admitBody
  dsimp only
  refine closes_checked _ ?_
  split
  · exact closes_refuse _
  · split
    · exact closes_taken ((quiet_startCapture _ _ s).trans (quiet_appendVisit _ _ _)) _ _
    · exact closes_taken ((quiet_appendVisit _ _ s).trans (quiet_raiseLane _ _ _)) _ _

theorem work_departReleased (n : LaneId) (v : Visit) (s : State) : YardWork s (departReleased n v s) :=
  (((work_releaseVisit v s).trans (quiet_register _ _).toYardWork).trans (quiet_raiseLane n _ _).toYardWork).trans
    (work_fillAll _)

theorem departBody_closes (f : DepartFields) (s : State) : (departBody f s).closes s (YardWork s) := by
  unfold departBody
  refine closes_checked _ ?_
  split
  · exact closes_refuse _
  · refine closes_checked _ ?_
    split
    · exact closes_refuse _
    · dsimp only
      split
      · exact closes_taken ((quiet_startCapture _ _ s).trans (quiet_register _ _)).toYardWork _ _
      · exact closes_taken (work_departReleased _ _ s) _ _

theorem recaptureBody_closes (n : LaneId) (s : State) : (recaptureBody n s).closes s (QuietWork s) := by
  unfold recaptureBody
  refine closes_checked _ ?_
  split
  · exact closes_refuse _
  · refine closes_checked _ ?_
    split
    · exact closes_refuse _
    · exact closes_taken ((quiet_startCapture _ _ s).trans (quiet_register _ _)) _ _

theorem quiet_cancelVisit (n : LaneId) (v : Nat) (s : State) : QuietWork s (cancelVisit n v s) :=
  ((quiet_register s _).trans (quiet_endVisitCapture n v _)).trans (quiet_offerAll _ _)

theorem cancelBody_closes (n : LaneId) (s : State) : (cancelBody n s).closes s (QuietWork s) := by
  unfold cancelBody
  refine closes_checked _ ?_
  split
  · exact closes_refuse _
  · split
    · exact closes_taken (quiet_cancelVisit _ _ s) _ _
    · exact closes_refuse _

theorem clearLaneBody_closes (n : LaneId) (s : State) : (clearLaneBody n s).closes s (QuietWork s) := by
  unfold clearLaneBody
  refine closes_checked _ ?_
  split
  · exact closes_refuse _
  · split
    · exact closes_taken ((quiet_withdrawLane n _ s).trans (quiet_registerTold _ _ _)) _ _
    · exact closes_refuse _

theorem quiet_onLane (n : Option LaneId) {f : LaneId → State → State} (hf : ∀ n s, QuietWork s (f n s)) (s : State) :
    QuietWork s (onLane n f s) := by
  cases n with
  | none => exact .refl s
  | some n => exact hf n s

theorem work_voidRecorded (v : Visit) (s : State) : YardWork s (voidRecorded v s) := by
  have hwithdrawn := (work_writeRecord (v.voidTicket s.clock.time) s).trans
    (quiet_onLane v.laneOf (fun n s => quiet_withdrawLane n v.number s) _).toYardWork
  exact ((hwithdrawn.trans (quiet_registerTold _ _ _).toYardWork).trans (work_fillAll _)).trans
    (quiet_onLane v.laneOf (fun n s => quiet_endVisitCapture n v.number s) _).toYardWork

theorem voidBody_closes (num : Nat) (s : State) : (voidBody num s).closes s (YardWork s) := by
  unfold voidBody
  split
  · exact closes_refuse _
  · rename_i v _
    cases v.state with
    | weighIn => exact closes_taken (quiet_cancelVisit _ _ s).toYardWork _ _
    | entering | onSite | weighOut => exact closes_taken (work_voidRecorded v s) _ _
    | released => exact closes_refuse _

/-- R120: a new stream is no field of a word, and of no barrier: no event is closed. -/
theorem reclassifyBody_quiet (f : Nat × Nat) (s : State) :
    (s.power.phase ≠ .starting → YardShown s (reclassifyBody f s).state) ∧ s.lowOnly (reclassifyBody f s).state := by
  unfold reclassifyBody
  split
  · exact ⟨fun _ => .refl s, rfl⟩
  · split
    · exact ⟨fun _ => .refl s, rfl⟩
    · exact ⟨fun _ => ⟨(quiet_registerTold s _ _).yard, fun hw n => ⟨hw n, fun hc => absurd rfl hc⟩, id⟩, rfl⟩

/-! ### Barriers -/

theorem reraiseBody_closes (n : LaneId) (s : State) : (reraiseBody n s).closes s (QuietWork s) := by
  unfold reraiseBody
  refine closes_checked _ ?_
  split
  · exact closes_refuse _
  · exact closes_checked _ (closes_taken (quiet_raiseLane n _ s) _ _)

theorem quiet_manualRaise (n : LaneId) (s : State) : QuietWork s (applyLane n (s.lane n).manualRaise s) := by
  obtain ⟨hsite, _, _, _, _, hg⟩ := manualRaise_spec (s.lane n)
  exact quiet_applyLane n _ s hsite hg

theorem quiet_lowerReset {n : LaneId} {s : State} {r : LaneStep} (h : (s.lane n).lowerReset = some r) :
    QuietWork s (applyLane n r s) := by
  obtain ⟨hsite, _, _, _, _, hg⟩ := lowerReset_spec (s.lane n) r h
  exact quiet_applyLane n r s hsite hg

theorem lowerResetBody_closes (n : LaneId) (s : State) : (lowerResetBody n s).closes s (QuietWork s) := by
  unfold lowerResetBody
  refine closes_checked _ ?_
  split
  · exact closes_refuse _
  · exact closes_taken (quiet_lowerReset ‹_›) _ _

/-! ### Decks -/

theorem spotWeighBody_closes (l : LinkId) (d : DeckId) (s : State) : (spotWeighBody l d s).closes s (QuietWork s) :=
  closes_checked _ (closes_taken (quiet_startCapture d _ s) _ _)

theorem wakeBody_closes (d : DeckId) (s : State) : (wakeBody d s).closes s (QuietWork s) := by
  unfold wakeBody
  cases (s.deck d).state with
  | sleep | warming => exact closes_taken (quiet_wakeForRequest d s) _ _
  | active => exact closes_taken (.of_lanes (yard_setDeck s d _ rfl rfl) rfl rfl) _ _
  | service => exact .inl rfl
  | fault | unused => exact closes_refuse _

theorem quiet_enterService (d : DeckId) (s : State) : QuietWork s (enterService d s) := by
  have hmark : QuietWork s (s.setDeck d { s.deck d with service := true }) :=
    .of_lanes (yard_setDeck s d _ rfl rfl) rfl rfl
  have hdeck : QuietWork s (s.inService d) := by
    unfold State.inService
    split
    · exact hmark.trans (quiet_deckChange _ _ _ _)
    · exact hmark
  rw [enterService_eq]
  exact hdeck.trans (quiet_withdraw d _ _)

theorem serviceEnterBody_closes (d : DeckId) (s : State) : (serviceEnterBody d s).closes s (QuietWork s) := by
  unfold serviceEnterBody
  split
  · exact closes_refuse _
  · exact closes_taken (quiet_enterService d s) _ _

theorem quiet_leaveService (d : DeckId) (s : State) : QuietWork s (leaveService d s) := by
  have hmark : QuietWork s (s.setDeck d { s.deck d with service := false }) :=
    .of_lanes (yard_setDeck s d _ rfl rfl) rfl rfl
  unfold leaveService
  dsimp only
  split
  · exact hmark.trans (quiet_deckChange _ _ _ _)
  · exact hmark

theorem serviceLeaveBody_closes (d : DeckId) (s : State) : (serviceLeaveBody d s).closes s (QuietWork s) := by
  unfold serviceLeaveBody
  split
  · exact closes_taken (quiet_leaveService d s) _ _
  · exact closes_refuse _

/-! ### The yard mode -/

theorem quiet_forceVisit (v : Visit) (s : State) : QuietWork s (forceVisit v s) := by
  unfold forceVisit
  cases v.state with
  | weighIn | weighOut => exact quiet_onLane _ (fun n s => quiet_endVisitCapture n v.number s) s
  | entering | released => exact quiet_onLane _ (fun n s => quiet_withdrawLane n v.number s) s
  | onSite => exact .refl s

theorem quiet_forceClosed (s : State) : QuietWork s (forceClosed s) :=
  (quiet_foldl _ (fun s v => quiet_forceVisit v s) _ s).trans (quiet_becomeClosed _)

theorem yardModeBody_closes (m : ModeAsked) (s : State) : (yardModeBody m s).closes s (QuietWork s) := by
  unfold yardModeBody
  split
  · exact .inl rfl
  · exact closes_taken (quiet_register s _) _ _
  · exact closes_taken (quiet_forceClosed s) _ _
  · exact closes_taken (quiet_register s _) _ _
  · exact .inl rfl
  · exact closes_taken (quiet_forceClosed s) _ _
  · split
    · exact closes_taken (quiet_register s _) _ _
    · exact closes_refuse _
  · exact closes_refuse _
  · exact closes_refuse _

/-! ### The requests as commands -/

/-- The requests on visits, barriers, decks and the yard mode that write no record. -/
def isYardRequest : Instr → Bool
  | .admitVehicle _ _ _ | .recapture _ _ _ | .cancel _ _ _ | .reraise _ _ _ | .clearLane _ _ _ => true
  | .reclassify _ _ _ | .manualRaise _ _ _ | .lowerReset _ _ _ | .spotWeigh _ _ _ | .wake _ _ _ => true
  | .serviceEnter _ _ _ | .serviceLeave _ _ _ | .setYardMode _ _ _ => true
  | _ => false

/-- The requests that write a record. -/
def isRecordRequest : Instr → Bool
  | .depart _ _ _ | .voidVisit _ _ _ => true
  | _ => false

/-- A command that is a request whose body does quiet work. -/
theorem quietRequest_shown {α : Type} {i : Instr} {l : LinkId} {code tag : Byte} {allowed : Role → Bool}
    {fields : Option α} {body : α → State → Answer} {s t : State}
    (he : exec i s = .next (request l code tag allowed fields body s))
    (hbody : ∀ x u, (u.power.phase ≠ .starting → YardShown u (body x u).state) ∧ State.lowOnly u (body x u).state)
    (h : exec i s = .next t) :
    RequestShown l s t ∧ s.lowOnly t := by
  rw [he] at h
  cases h
  exact ⟨request_shown l code tag allowed fields s (fun x u => (hbody x u).1),
    request_lowOnly l code tag allowed fields s (fun x u => (hbody x u).2)⟩

theorem isRecordRequest_shown {i : Instr} (hi : isRecordRequest i = true) {s t : State} (h : exec i s = .next t)
    {l : LinkId} {code tag : Byte} (hl : requestOf i = some (l, code, tag)) : RequestShown l s t := by
  cases i with
  | depart l' tag' p =>
    cases hl
    cases h
    exact request_shown _ _ _ _ _ s (fun f u => closes_shown (departBody_closes f u))
  | voidVisit l' tag' p =>
    cases hl
    cases h
    exact request_shown _ _ _ _ _ s (fun f u => closes_shown (voidBody_closes f u))
  | _ => cases hi

theorem isYardRequest_shown {i : Instr} (hi : isYardRequest i = true) {s t : State} (h : exec i s = .next t)
    {l : LinkId} {code tag : Byte} (hl : requestOf i = some (l, code, tag)) : RequestShown l s t ∧ s.lowOnly t := by
  cases i with
  | admitVehicle l' _ p =>
    cases hl
    exact quietRequest_shown rfl (fun f u => closes_quiet (admitBody_closes _ f u)) h
  | recapture l' _ p =>
    cases hl
    exact quietRequest_shown rfl (fun f u => closes_quiet (recaptureBody_closes f u)) h
  | cancel l' _ p =>
    cases hl
    exact quietRequest_shown rfl (fun f u => closes_quiet (cancelBody_closes f u)) h
  | reraise l' _ p =>
    cases hl
    exact quietRequest_shown rfl (fun f u => closes_quiet (reraiseBody_closes f u)) h
  | clearLane l' _ p =>
    cases hl
    exact quietRequest_shown rfl (fun f u => closes_quiet (clearLaneBody_closes f u)) h
  | reclassify l' _ p =>
    cases hl
    exact quietRequest_shown rfl reclassifyBody_quiet h
  | manualRaise l' _ p =>
    cases hl
    exact quietRequest_shown rfl (fun f u => closes_quiet (closes_taken (quiet_manualRaise f u) _ _)) h
  | lowerReset l' _ p =>
    cases hl
    exact quietRequest_shown rfl (fun f u => closes_quiet (lowerResetBody_closes f u)) h
  | spotWeigh l' _ p =>
    cases hl
    exact quietRequest_shown rfl (fun f u => closes_quiet (spotWeighBody_closes _ f u)) h
  | wake l' _ p =>
    cases hl
    exact quietRequest_shown rfl (fun f u => closes_quiet (wakeBody_closes f u)) h
  | serviceEnter l' _ p =>
    cases hl
    exact quietRequest_shown rfl (fun f u => closes_quiet (serviceEnterBody_closes f u)) h
  | serviceLeave l' _ p =>
    cases hl
    exact quietRequest_shown rfl (fun f u => closes_quiet (serviceLeaveBody_closes f u)) h
  | setYardMode l' _ p =>
    cases hl
    exact quietRequest_shown rfl (fun f u => closes_quiet (yardModeBody_closes f u)) h
  | _ => cases hi

/-- Settles O60: the body of each request, its frame and its reply. -/
theorem yardRequestsLeaveRestAlone : Obligations.YardRequestsLeaveRestAlone := by
  intro s t l tag p i h
  refine ⟨fun hi => ?_, fun hi => ?_⟩
  · have hshown : RequestShown l s t := by
      rcases hi with rfl | rfl <;> exact isRecordRequest_shown rfl h rfl
    exact ⟨hshown.fixed, hshown.words, hshown.traffic⟩
  · have hshown : RequestShown l s t ∧ s.lowOnly t := by
      rcases hi with rfl | rfl | rfl | rfl | rfl | rfl | rfl | rfl | rfl | rfl | rfl | rfl | rfl <;>
        exact isYardRequest_shown rfl h rfl
    exact ⟨hshown.1.fixed, hshown.1.words, hshown.1.traffic, hshown.2⟩

end Sys2Proof.Machine
end

section
/-! PROOF. Every step keeps the barriers safe (R77, R83, R85, R87): the events and requests of the yard by their work,
the others because they leave the lanes, change their setup alone, or clear them and bring them up. -/

namespace Sys2Proof.Machine

/-! ### Steps that leave the barriers -/

/-- Of each lane at most the setup in effect has changed. -/
def State.setupsAlone (s t : State) : Prop := ∀ n, ∃ u b, t.lane n = { s.lane n with setup := u, setupBad := b }

theorem setupsAlone_of_lanes {s t : State} (h : t.lanes = s.lanes) : s.setupsAlone t := fun n =>
  ⟨(s.lane n).setup, (s.lane n).setupBad, by unfold State.lane; rw [h]⟩

theorem State.setupsAlone.trans {a b c : State} (h : a.setupsAlone b) (h' : b.setupsAlone c) : a.setupsAlone c := by
  intro n
  obtain ⟨u, x, e⟩ := h n
  obtain ⟨v, y, e'⟩ := h' n
  exact ⟨v, y, by rw [e', e]⟩

theorem setupsAlone_lane {s t : State} (h : s.setupsAlone t) (n : LaneId) :
    ((s.lane n).shown → (t.lane n).shown) ∧ ((s.lane n).clearGuarded → (t.lane n).clearGuarded) ∧
      (t.lane n).barrier = (s.lane n).barrier ∧ (t.lane n).settled = (s.lane n).settled := by
  obtain ⟨u, b, e⟩ := h n
  rw [e]
  exact ⟨id, id, rfl, rfl⟩

theorem barriersSafe_of_setups {s t : State} (h : s.setupsAlone t) (hp : t.power.phase = s.power.phase)
    (hs : s.barriersSafe) : t.barriersSafe := by
  obtain ⟨hlanes, hstart⟩ := hs
  refine ⟨fun n => ?_, fun ht n => ?_⟩
  · obtain ⟨hshown, hguard, _, _⟩ := setupsAlone_lane h n
    exact ⟨hshown (hlanes n).1, hguard (hlanes n).2⟩
  · obtain ⟨_, _, hbarrier, hsettled⟩ := setupsAlone_lane h n
    rw [hbarrier, hsettled]
    exact hstart (hp ▸ ht) n

theorem barriersSafe_of_lanes {s t : State} (h : t.lanes = s.lanes) (hp : t.power.phase = s.power.phase)
    (hs : s.barriersSafe) : t.barriersSafe := barriersSafe_of_setups (setupsAlone_of_lanes h) hp hs

/-- A request whose body leaves lanes and start-up. -/
theorem request_safe {α : Type} (l : LinkId) (code tag : Byte) (allowed : Role → Bool) (fields : Option α)
    {body : α → State → Answer} {s : State}
    (hbody : ∀ x u, (body x u).state.lanes = u.lanes ∧ (body x u).state.power = u.power) (hs : s.barriersSafe) :
    (request l code tag allowed fields body s).barriersSafe := by
  rcases request_cases l code tag allowed fields body s with e | ⟨k, _, e⟩ | ⟨_, x, r, e⟩
  · rw [e]
    exact hs
  · rw [e]
    exact hs
  · obtain ⟨hlanes, hpower⟩ := hbody x (s.handling l code tag)
    rw [e]
    exact barriersSafe_of_lanes hlanes (congrArg Power.phase hpower) hs

/-! ### Bodies that leave the lanes -/

/-- The body's answer leaves the lanes and the supplies. -/
def Answer.leavesLanes (a : Answer) (s : State) : Prop := a.state.lanes = s.lanes ∧ a.state.power = s.power

theorem leavesLanes_checked {checks : List (Bool × Status)} {s : State} {go : Answer} (h : go.leavesLanes s) :
    (checked checks s go).leavesLanes s := by
  unfold checked
  split
  · exact ⟨rfl, rfl⟩
  · exact h

theorem zeroBody_leavesLanes (d : DeckId) (s : State) : (zeroBody d s).leavesLanes s :=
  leavesLanes_checked ⟨rfl, rfl⟩

theorem startZeroCal_leavesLanes (d : DeckId) (s : State) :
    (startZeroCal d s).lanes = s.lanes ∧ (startZeroCal d s).power = s.power := by
  unfold startZeroCal
  dsimp only
  split <;> exact ⟨rfl, rfl⟩

theorem zeroCalBody_leavesLanes (calen : Bool) (d : DeckId) (s : State) : (zeroCalBody calen d s).leavesLanes s :=
  leavesLanes_checked (startZeroCal_leavesLanes d s)

theorem tareWriteBody_leavesLanes (e : TareEntry) (s : State) : (tareWriteBody e s).leavesLanes s := by
  unfold tareWriteBody
  split
  · exact ⟨rfl, rfl⟩
  · split <;> exact ⟨rfl, rfl⟩

theorem tareEraseBody_leavesLanes (p : Plate) (s : State) : (tareEraseBody p s).leavesLanes s := by
  unfold tareEraseBody
  split
  · exact ⟨rfl, rfl⟩
  · split <;> exact ⟨rfl, rfl⟩

theorem tareReadBody_leavesLanes (f : TareReadForm) (s : State) : (tareReadBody f s).leavesLanes s := by
  unfold tareReadBody
  split
  · exact ⟨rfl, rfl⟩
  · split <;> exact ⟨rfl, rfl⟩

theorem setupWriteBody_leavesLanes (calen : Bool) (g : SetupGiven) (s : State) :
    (setupWriteBody calen g s).leavesLanes s := by
  unfold setupWriteBody
  split <;> exact ⟨rfl, rfl⟩

theorem ticketBaseBody_leavesLanes (n : Nat) (s : State) : (ticketBaseBody n s).leavesLanes s := by
  unfold ticketBaseBody
  split <;> exact ⟨rfl, rfl⟩

theorem readVisitBody_leavesLanes (v : Nat) (s : State) : (readVisitBody v s).leavesLanes s := by
  unfold readVisitBody
  split <;> exact ⟨rfl, rfl⟩

theorem readTicketBody_leavesLanes (n : Nat) (s : State) : (readTicketBody n s).leavesLanes s := by
  unfold readTicketBody
  split
  · exact ⟨rfl, rfl⟩
  · split <;> exact ⟨rfl, rfl⟩

theorem slotReadBody_leavesLanes (l : LinkId) (i : SlotId) (s : State) : (slotReadBody l i s).leavesLanes s := by
  unfold slotReadBody
  split <;> exact ⟨rfl, rfl⟩

theorem slotReturnBody_leavesLanes (l : LinkId) (i : SlotId) (s : State) : (slotReturnBody l i s).leavesLanes s := by
  unfold slotReturnBody
  split
  · exact ⟨rfl, rfl⟩
  · split <;> exact ⟨rfl, rfl⟩

theorem journalRoleBody_leavesLanes (l : LinkId) (r : JournalRole) (s : State) :
    (journalRoleBody l r s).leavesLanes s := by
  unfold journalRoleBody
  split <;> exact ⟨rfl, rfl⟩

/-! ### A completed write -/

theorem laneSetupTakesEffect_setups (n : LaneId) (u : LaneSetup) (s : State) :
    s.setupsAlone (laneSetupTakesEffect n u s) := by
  intro m
  by_cases h : m = n
  · subst h
    exact ⟨s.setupFrom m u, false, get_setAt_self _ _ _⟩
  · exact ⟨(s.lane m).setup, (s.lane m).setupBad, get_setAt_ne _ _ h⟩

theorem leaveUnused_lanes (d : DeckId) (s : State) : (leaveUnused d s).lanes = s.lanes := by
  unfold leaveUnused
  split
  · exact (deckChange_frame _ _ _ s).2.2.2.2.1
  · rfl

theorem becomeUnused_lanes (d : DeckId) (s : State) : (becomeUnused d s).lanes = s.lanes := by
  unfold becomeUnused
  split
  · exact (deckChange_frame _ _ _ s).2.2.2.2.1
  · rfl

theorem leaveFault_lanes (d : DeckId) (s : State) : (leaveFault d s).lanes = s.lanes := by
  unfold leaveFault
  split
  · exact (deckChange_frame _ _ _ s).2.2.2.2.1
  · rfl

theorem calTakesEffect_lanes (c : ChanId) (r : CalRecord) (s : State) : (calTakesEffect c r s).lanes = s.lanes := by
  have hleft : ∀ d u, (deckLeft d u).lanes = u.lanes := by
    intro d u
    cases d with
    | none => rfl
    | some d => exact (leaveFault_lanes d _).trans (becomeUnused_lanes d _)
  have hjoined : ∀ d u, (deckJoined d u).lanes = u.lanes := by
    intro d u
    cases d with
    | none => rfl
    | some d => exact leaveUnused_lanes d _
  unfold calTakesEffect
  dsimp only
  split
  · split <;> rfl
  · exact (hjoined _ _).trans (hleft _ _)

theorem yardSetupTakesEffect_lanes (u : YardSetup) (s : State) : (yardSetupTakesEffect u s).lanes = s.lanes := by
  unfold yardSetupTakesEffect
  dsimp only
  split <;> split <;> rfl

/-- R132 step 2: a record that takes effect reaches a lane's setup at most. -/
theorem takesEffect_setups (w : StoreWrite) (s : State) : s.setupsAlone (takesEffect w s) := by
  cases w with
  | tare i e => exact setupsAlone_of_lanes rfl
  | cal c r => exact setupsAlone_of_lanes (calTakesEffect_lanes c r s)
  | deck d u => exact setupsAlone_of_lanes (leaveUnused_lanes d _)
  | lane n u => exact laneSetupTakesEffect_setups n u s
  | yard u => exact setupsAlone_of_lanes (yardSetupTakesEffect_lanes u s)

theorem engineNext_lanes (z : Option DeckId) (s : State) : (engineNext z s).lanes = s.lanes := by
  unfold engineNext
  split
  · rfl
  · dsimp only
    split <;> rfl

theorem completeWrite_setups (s : State) : s.setupsAlone (completeWrite s) := by
  unfold completeWrite
  split
  · exact setupsAlone_of_lanes rfl
  · exact (takesEffect_setups _ { s with store := s.store.complete _ }).trans
      (setupsAlone_of_lanes (engineNext_lanes _ _))

/-- The close of an event in which only setups have changed. -/
theorem finish_setups_safe (m : YardMode) {s u : State} (h : s.setupsAlone u) (hp : u.power = s.power)
    (hs : s.barriersSafe) (hstart : s.power.phase ≠ .starting) : (finish m u).barriersSafe := by
  refine ((YardWork.refl u).shown ?_ m).safe (barriersSafe_of_setups h (by rw [hp]) hs)
  rw [hp]
  exact hstart

theorem storeWriteDone_safe {s t : State} (h : exec .storeWriteDone s = .next t) (hs : s.barriersSafe) :
    t.barriersSafe := by
  obtain rfl | ⟨hu, _, rfl⟩ := yardEvent_cases (now := fun s => s.store.engine.isSome) (f := completeWrite) h
  · exact hs
  · exact finish_setups_safe _ (completeWrite_setups s) (completeWrite_frame s).1.power hs (phase_of_up hu)

/-! ### Resets and start-up -/

theorem clearWorking_safe (s : State) : (clearWorking s).barriersSafe := by
  have hlane : ∀ n, (clearWorking s).lane n = (s.lane n).cleared := fun n => get_map _ _ _
  refine ⟨fun n => ?_, fun _ n => ?_⟩
  · rw [hlane]
    exact ⟨by simp [Lane.shown, Lane.cleared], clearGuarded_of_clear _ rfl⟩
  · rw [hlane]
    exact ⟨rfl, rfl⟩

theorem beginStart_safe (kind : ResetKind) (straps : Straps) (s : State) : (beginStart kind straps s).barriersSafe :=
  barriersSafe_of_lanes (s := clearWorking s) rfl rfl (clearWorking_safe s)

theorem abandonMarked_leaves (s : State) :
    (abandonMarked s).lanes = s.lanes ∧ (abandonMarked s).power = s.power := by
  obtain ⟨h, _⟩ := abandonWrite_frame s
  unfold abandonMarked
  split
  · exact ⟨rfl, rfl⟩
  · dsimp only
    rw [h]
    exact ⟨rfl, rfl⟩

theorem backupCheck_leaves (s : State) :
    (backupCheck s).lanes = s.lanes ∧ (backupCheck s).power.phase = s.power.phase := by
  unfold backupCheck
  split
  · dsimp only
    split <;> exact ⟨rfl, rfl⟩
  · exact ⟨rfl, rfl⟩

theorem scanStore_setups (s : State) : s.setupsAlone (scanStore s) := fun _ => ⟨_, _, get_ofFn _ _⟩

theorem registerUp_setups (s : State) : s.setupsAlone (registerUp s) := fun n =>
  ⟨_, (s.lane n).setupBad, get_ofFn _ _⟩

/-- R87: a lane that comes up UNRESOLVED and unsettled, with its outputs as the state has them. -/
theorem comeUp_safe {k : Lane} (hs : k.shown) (hb : k.barrier = .unresolved) (hn : k.settled = false) (w : StatusWord) :
    ({ k.comeUp with word := w } : Lane).shown ∧ ({ k.comeUp with word := w } : Lane).clearGuarded := by
  refine ⟨hs, fun ho => ⟨?_, hn, if_pos ho⟩⟩
  rw [show ({ k.comeUp with word := w } : Lane).barrier = k.barrier from rfl, hb]
  decide

/-- R204: the store, the journal and the end of start-up leave the lanes that have come up. -/
theorem laterComeUps_lanes (u : State) : (endStart (fillAll (journalUp (storeUp u)))).lanes = u.lanes := by
  show (fillAll (journalUp (storeUp u))).lanes = _
  rw [fillAll_frame]
  rfl

theorem comeUps_lane (s : State) (n : LaneId) :
    ∃ u b w, (comeUps s).lane n = { ({ s.lane n with setup := u, setupBad := b } : Lane).comeUp with word := w } := by
  obtain ⟨u, b, hsetup⟩ := registerUp_setups s n
  obtain ⟨_, _, _, _, hdecks, _⟩ := decksUp_frame (cellsUp (registerUp s))
  obtain ⟨_, _, _, _, _, _, _, hlane⟩ := lanesUp_frame (decksUp (cellsUp (registerUp s)))
  obtain ⟨w, hw⟩ := hlane n
  refine ⟨u, b, w, ?_⟩
  have hrest : (comeUps s).lane n = (lanesUp (decksUp (cellsUp (registerUp s)))).lane n :=
    congrArg (Vector.get · n) (laterComeUps_lanes _)
  have hup : (decksUp (cellsUp (registerUp s))).lane n = { s.lane n with setup := u, setupBad := b } := by
    unfold State.lane
    rw [hdecks]
    exact hsetup
  rw [hrest, hw, hup]

theorem comeUps_safe {s : State} (hs : s.barriersSafe) (hp : s.power.phase = .starting) : (comeUps s).barriersSafe := by
  obtain ⟨hlanes, hstart⟩ := hs
  obtain ⟨_, _, _, _, hpower, _⟩ := comeUps_spec s
  refine barriersSafe_of_running (by rw [hpower]; exact Phase.noConfusion) (fun n => ?_)
  obtain ⟨hb, hn⟩ := hstart hp n
  obtain ⟨u, b, w, e⟩ := comeUps_lane s n
  rw [e]
  exact comeUp_safe (k := { s.lane n with setup := u, setupBad := b }) (hlanes n).1 hb hn w

theorem restartBegin_safe (straps : Straps) (s : State) :
    (comeUps (abandonMarked (beginStart .restart straps s))).barriersSafe := by
  obtain ⟨hlanes, hpower⟩ := abandonMarked_leaves (beginStart .restart straps s)
  obtain ⟨_, _, _, _, hbegun, _⟩ := beginStart_spec .restart straps s
  refine comeUps_safe (barriersSafe_of_lanes hlanes (by rw [hpower]) (beginStart_safe _ _ s)) ?_
  rw [hpower, hbegun]

theorem storeScanDone_safe {s : State} (hs : s.barriersSafe) (hp : s.power.phase = .starting) :
    (comeUps (backupCheck (scanStore s))).barriersSafe := by
  obtain ⟨hlanes, hphase⟩ := backupCheck_leaves (scanStore s)
  exact comeUps_safe (barriersSafe_of_lanes hlanes hphase (barriersSafe_of_setups (scanStore_setups s) rfl hs))
    (hphase.trans hp)

/-! ### Every command -/

theorem isYardCommand_safe {i : Instr} {s t : State} (h : exec i s = .next t)
    (hi : isYardEvent i = true ∨ (isYardRequest i = true ∨ isRecordRequest i = true) ∧ ∃ q, requestOf i = some q)
    (hs : s.barriersSafe) : t.barriersSafe := by
  obtain he | ⟨hq | hr, ⟨l, code, tag⟩, hl⟩ := hi
  · exact (isYardEvent_shown he h).1.safe hs
  · exact (isYardRequest_shown hq h hl).1.safe hs
  · exact (isRecordRequest_shown hr h hl).safe hs

/-- A command that is a request whose body leaves the lanes; the level of CALEN it may sample is no matter of a lane. -/
theorem leavingRequest_safe {α : Type} {i : Instr} {l : LinkId} {code tag : Byte} {allowed : Role → Bool}
    {fields : Option α} {body : α → State → Answer} {s u t : State}
    (he : exec i s = .next (request l code tag allowed fields body u)) (hu : s.barriersSafe → u.barriersSafe)
    (hbody : ∀ x u, (body x u).leavesLanes u) (h : exec i s = .next t) (hs : s.barriersSafe) : t.barriersSafe := by
  rw [he] at h
  cases h
  exact request_safe l code tag allowed fields hbody (hu hs)

/-- A command that leaves the lanes and start-up. -/
theorem leavingEvent_safe {i : Instr} {s u t : State} (he : exec i s = .next u) (hl : u.lanes = s.lanes)
    (hp : u.power.phase = s.power.phase) (h : exec i s = .next t) (hs : s.barriersSafe) : t.barriersSafe := by
  rw [he] at h
  cases h
  exact barriersSafe_of_lanes hl hp hs

theorem dropFrame_leaves (l : LinkId) (s : State) :
    (dropFrame l s).lanes = s.lanes ∧ (dropFrame l s).power.phase = s.power.phase := by
  unfold dropFrame
  split <;> exact ⟨rfl, rfl⟩

theorem exec_safe {i : Instr} {s t : State} (h : exec i s = .next t) (hs : s.barriersSafe) : t.barriersSafe := by
  cases i with
  | cellReading c raw ok => exact (cellReading_shown h).safe hs
  | storeWriteDone => exact storeWriteDone_safe h hs
  | clockSecond =>
    cases h
    split
    · split <;> exact hs
    · exact hs
  | zeroDeck l tag p => exact leavingRequest_safe rfl id zeroBody_leavesLanes h hs
  | zeroCal l tag p calen =>
    exact leavingRequest_safe (s := s) (u := s.withCalen calen) rfl id (zeroCalBody_leavesLanes calen) h hs
  | tareWrite l tag p => exact leavingRequest_safe rfl id tareWriteBody_leavesLanes h hs
  | tareErase l tag p => exact leavingRequest_safe rfl id tareEraseBody_leavesLanes h hs
  | tareRead l tag p => exact leavingRequest_safe rfl id tareReadBody_leavesLanes h hs
  | setupWrite l tag p calen =>
    exact leavingRequest_safe (s := s) (u := s.withCalen calen) rfl id (setupWriteBody_leavesLanes calen) h hs
  | setupRead l tag p calen =>
    exact leavingRequest_safe (s := s) (u := s.withCalen calen) rfl id (fun _ _ => ⟨rfl, rfl⟩) h hs
  | setClock l tag p => exact leavingRequest_safe rfl id (fun _ _ => ⟨rfl, rfl⟩) h hs
  | readClock l tag p => exact leavingRequest_safe rfl id (fun _ _ => ⟨rfl, rfl⟩) h hs
  | setTicketBase l tag p => exact leavingRequest_safe rfl id ticketBaseBody_leavesLanes h hs
  | restart l tag p => exact leavingRequest_safe rfl id (fun _ _ => ⟨rfl, rfl⟩) h hs
  | identify l tag p => exact leavingRequest_safe rfl id (fun _ _ => ⟨rfl, rfl⟩) h hs
  | readDeck l tag p => exact leavingRequest_safe rfl id (fun _ _ => ⟨rfl, rfl⟩) h hs
  | readLane l tag p => exact leavingRequest_safe rfl id (fun _ _ => ⟨rfl, rfl⟩) h hs
  | readVisit l tag p => exact leavingRequest_safe rfl id readVisitBody_leavesLanes h hs
  | listVisits l tag p => exact leavingRequest_safe rfl id (fun _ _ => ⟨rfl, rfl⟩) h hs
  | readTicket l tag p => exact leavingRequest_safe rfl id readTicketBody_leavesLanes h hs
  | slotRead l tag p => exact leavingRequest_safe rfl id (slotReadBody_leavesLanes l) h hs
  | slotReturn l tag p => exact leavingRequest_safe rfl id (slotReturnBody_leavesLanes l) h hs
  | slotHalt l tag p => exact leavingRequest_safe rfl id (fun _ _ => ⟨rfl, rfl⟩) h hs
  | slotResume l tag p => exact leavingRequest_safe rfl id (fun _ _ => ⟨rfl, rfl⟩) h hs
  | setSubscription l tag p => exact leavingRequest_safe rfl id (fun _ _ => ⟨rfl, rfl⟩) h hs
  | setJournalRole l tag p => exact leavingRequest_safe rfl id (journalRoleBody_leavesLanes l) h hs
  | unknownKind l kind tag p => exact leavingRequest_safe rfl id (fun _ _ => ⟨rfl, rfl⟩) h hs
  | badFrame l why => exact leavingEvent_safe rfl (dropFrame_leaves l s).1 (dropFrame_leaves l s).2 h hs
  | frameGapTimeout l => exact leavingEvent_safe rfl (dropFrame_leaves l s).1 (dropFrame_leaves l s).2 h hs
  | frameLeadByte l =>
    cases h
    split <;> exact hs
  | frameSent l =>
    cases h
    split
    · unfold frameSent
      dsimp only
      split <;> exact hs
    · exact hs
  | restartBegin straps =>
    cases h
    split
    · exact restartBegin_safe straps s
    · exact hs
  | powerOn straps =>
    cases h
    split
    · exact clearWorking_safe _
    · exact beginStart_safe _ _ _
  | resetPinAssert =>
    cases h
    exact clearWorking_safe _
  | resetPinRelease straps =>
    cases h
    dsimp only
    split
    · exact beginStart_safe _ _ _
    · exact hs
  | storeScanDone =>
    cases h
    split
    · rename_i hp
      simp only [Bool.and_eq_true, beq_iff_eq] at hp
      exact storeScanDone_safe hs hp.2
    · exact hs
  | mainSupplyLoss =>
    cases h
    split
    · exact clearWorking_safe _
    · exact hs
  | backupSupplyFail =>
    cases h
    split <;> exact hs
  | admitVehicle | depart | recapture | cancel | reraise | clearLane | voidVisit | reclassify | manualRaise
  | lowerReset | spotWeigh | wake | serviceEnter | serviceLeave | setYardMode =>
    exact isYardCommand_safe h (.inr ⟨by simp [isYardRequest, isRecordRequest], _, rfl⟩) hs
  | _ => exact isYardCommand_safe h (.inl rfl) hs

theorem step_safe {s t : State} (h : step s = .next t) (hs : s.barriersSafe) : t.barriersSafe := by
  unfold step at h
  split at h
  · cases h
    exact hs
  · exact exec_safe h hs

/-- R77: RAISE and LOWER belong to two barrier states, and the guard shuts LOWERING out. -/
theorem outputs_safe {k : Lane} (hs : k.shown) (hg : k.clearGuarded) :
    ¬(k.raiseOut = true ∧ k.lowerOut = true) ∧ (k.clearLoop.occupied = true → k.lowerOut = false) := by
  obtain ⟨hraise, hlower, _⟩ := hs
  refine ⟨fun ⟨hr, hl⟩ => ?_, fun ho => ?_⟩
  · have hboth := (hraise.mp hr).symm.trans (hlower.mp hl)
    cases hboth
  · obtain ⟨hnot, _⟩ := hg ho
    rw [← Bool.not_eq_true, hlower]
    exact hnot

/-- Settles O54: the guard and the shown outputs are kept by every command, and the two claims follow from them. -/
theorem stepsKeepBarriersSafe : Obligations.StepsKeepBarriersSafe := by
  refine ⟨fun s t hs h => step_safe h hs, fun s ⟨hlanes, _⟩ n => ?_⟩
  obtain ⟨hshown, hguard⟩ := hlanes n
  exact outputs_safe hshown hguard

end Sys2Proof.Machine
end

section
/-! PROOF. The barrier machine case by case (R80, R81, R84, R87), and a lane at the close of the event that moved it. -/

namespace Sys2Proof.Machine

/-! ### Entering a barrier state -/

theorem bothLimits_of_up {k : Lane} (h : k.up.active = false) : k.bothLimits = false := by simp [Lane.bothLimits, h]

theorem bothLimits_of_down {k : Lane} (h : k.down.active = false) : k.bothLimits = false := by
  simp [Lane.bothLimits, h]

theorem enterDown_free {k : Lane} (h : k.bothLimits = false) :
    k.enterDown = { lane := { k with barrier := .down, jam := .none, travel := none, resolution := none } } := by
  simp [Lane.enterDown, h]

theorem enterLowering_both {k : Lane} (h : k.bothLimits = true) : k.enterLowering = k.jamFor .bothLimits := if_pos h

theorem enterLowering_down {k : Lane} (h : k.bothLimits = false) (hd : k.down.active = true) :
    k.enterLowering = k.enterDown := by
  simp [Lane.enterLowering, h, hd]

theorem enterLowering_free {k : Lane} (hd : k.down.active = false) :
    k.enterLowering =
      { lane := { k with barrier := .lowering, travel := some (k.setup.travel * 1000), resolution := none } } := by
  simp [Lane.enterLowering, bothLimits_of_down hd, hd]

/-- The lane raised to its upper end, before the lower conditions are judged there. -/
def Lane.atTop (k : Lane) : Lane := { k with barrier := .up, jam := .none, travel := none, resolution := none }

theorem enterUp_both {k : Lane} (h : k.bothLimits = true) : k.enterUp = k.jamFor .bothLimits := if_pos h

theorem enterUp_stays {k : Lane} (h : k.bothLimits = false)
    (hs : k.pendingCause (fun _ => true) = true ∨ k.settled = false) : k.enterUp = { lane := k.atTop } := by
  have hjudged : k.enterUp = k.atTop.judgeLower := by
    unfold Lane.enterUp
    rw [if_neg (ne_true_of_eq_false h)]
    rfl
  obtain ⟨_, _, _, _, hstay, _⟩ := judgeLower_spec k.atTop
  rw [hjudged]
  refine hstay ?_
  have hpending : k.atTop.pendingCause (fun _ => true) = k.pendingCause (fun _ => true) := rfl
  have hsettled : k.atTop.settled = k.settled := rfl
  unfold Lane.lowerConditions
  rw [hpending, hsettled]
  rcases hs with hs | hs <;> simp [hs]

theorem enterUp_lowers {k : Lane} (h : k.bothLimits = false) (hp : k.pendingCause (fun _ => true) = false)
    (hs : k.settled = true) : k.enterUp = k.atTop.enterLowering := by
  have hjudged : k.enterUp = k.atTop.judgeLower := by
    unfold Lane.enterUp
    rw [if_neg (ne_true_of_eq_false h)]
    rfl
  obtain ⟨_, _, _, _, _, hlower⟩ := judgeLower_spec k.atTop
  rw [hjudged]
  refine hlower ?_
  have hpending : k.atTop.pendingCause (fun _ => true) = k.pendingCause (fun _ => true) := rfl
  have hsettled : k.atTop.settled = k.settled := rfl
  unfold Lane.lowerConditions
  rw [hpending, hsettled, hp, hs]
  rfl

/-- R80, R84: an arm that reaches its upper end alone is UP, and lowers at once where the lower conditions hold. -/
theorem enterUp_free {k : Lane} (hd : k.down.active = false) :
    k.enterUp.lane.jam = .none ∧
      (k.pendingCause (fun _ => true) = true ∨ k.settled = false →
        k.enterUp.lane.barrier = .up ∧ k.enterUp.lane.travel = none) ∧
      (k.pendingCause (fun _ => true) = false → k.settled = true →
        k.enterUp.lane.barrier = .lowering ∧ k.enterUp.lane.travel = some (k.setup.travel * 1000)) := by
  have hb := bothLimits_of_down hd
  by_cases h : k.pendingCause (fun _ => true) = true ∨ k.settled = false
  · rw [enterUp_stays hb h]
    refine ⟨rfl, fun _ => ⟨rfl, rfl⟩, fun hp hs => ?_⟩
    simp [hp, hs] at h
  · obtain ⟨hp, hs⟩ := not_or.mp h
    rw [enterUp_lowers hb (by simpa using hp) (by simpa using hs), enterLowering_free (k := k.atTop) hd]
    exact ⟨rfl, fun h' => absurd h' h, fun _ _ => ⟨rfl, rfl⟩⟩

theorem enterRaising_both {k : Lane} (h : k.bothLimits = true) : k.enterRaising = k.jamFor .bothLimits := if_pos h

theorem enterRaising_up {k : Lane} (h : k.bothLimits = false) (hu : k.up.active = true) :
    k.enterRaising = k.enterUp := by
  simp [Lane.enterRaising, h, hu]

theorem enterRaising_free {k : Lane} (hu : k.up.active = false) :
    k.enterRaising =
      { lane := { k with barrier := .raising, travel := some (k.setup.travel * 1000), resolution := none } } := by
  simp [Lane.enterRaising, bothLimits_of_up hu, hu]

/-- R79, R88: a raise under a PENDING cause ends JAMMED, UP or RAISING by the limits, its resolution ended. -/
theorem enterRaising_pending {k : Lane} (hp : k.pendingCause (fun _ => true) = true) :
    k.enterRaising.lane.barrier = (if k.bothLimits then .jammed else if k.up.active then .up else .raising) ∧
      k.enterRaising.lane.resolution = none ∧
      (k.enterRaising.lane.barrier = .raising → k.enterRaising.lane.jam = k.jam) := by
  cases hb : k.bothLimits with
  | true =>
    rw [enterRaising_both hb]
    exact ⟨rfl, rfl, fun e => by cases e⟩
  | false =>
    cases hu : k.up.active with
    | true =>
      rw [enterRaising_up hb hu, enterUp_stays hb (.inl hp)]
      exact ⟨rfl, rfl, fun e => by cases e⟩
    | false =>
      rw [enterRaising_free hu]
      exact ⟨rfl, rfl, fun _ => rfl⟩

/-! ### A lane at the close of its event -/

theorem finish_applyLane (m : YardMode) (n : LaneId) (r : LaneStep) (u : State) :
    ∃ w, (finish m (applyLane n r u)).lane n = { r.lane.withOutputs with word := w } := by
  obtain ⟨_, w, h⟩ := finish_lane m (applyLane n r u) n
  rw [applyLane_lane_self] at h
  exact ⟨w, h⟩

/-- What is told before the close of an event is told after it. -/
theorem tells_finish {s u : State} {x : Notice} (m : YardMode) (hx : ∀ w, x ≠ .laneStatus w) (h : s.tells u x) :
    s.tells (finish m u) x := fun l => (yard_finish m u).links.told _ l x hx (h l)

theorem tells_of_yard {s u t : State} {x : Notice} (hu : YardOnly s u) (h : u.tells t x) : s.tells t x := fun l =>
  told_of_fixed _ _ _ _ (hu.links.fixed l).2.1 (hu.links.fixed l).2.2.1 (h l)

theorem laneEvent_ne_word {n : LaneId} {e : LaneEvent} (w : StatusWord) : Notice.laneEvent n e ≠ .laneStatus w :=
  Notice.noConfusion

/-- A jam is told (R81). -/
theorem finish_jam_told (m : YardMode) {n : LaneId} {r : LaneStep} (s : State) (h : r.jammed = true) :
    s.tells (finish m (applyLane n r s)) (.laneEvent n .jammed) :=
  tells_finish m laneEvent_ne_word ((applyLane_told n r s).1 h)

end Sys2Proof.Machine
end

section
/-! PROOF. Loops and limits and their debounces, and the barrier's timers (R73, R74, R76, R80 to R85, R87). -/

namespace Sys2Proof.Machine

/-! ### Debounces -/

@[simp] theorem loop_setLoop (k : Lane) (i : LoopId) (p : Loop) : (k.setLoop i p).loop i = p := by cases i <;> rfl

@[simp] theorem limit_setLimit (k : Lane) (i : LimitId) (p : Limit) : (k.setLimit i p).limit i = p := by cases i <;> rfl

/-- R73, R76: an agreement stops the timer, a difference starts it or leaves it running. -/
theorem debounceFor_spec (level state : Bool) (running : Option Debounce) (ms : Nat) :
    (level = state → debounceFor level state running ms = none) ∧
      (level ≠ state → running = none → debounceFor level state running ms = some ⟨level, ms⟩) ∧
      (level ≠ state → running.isSome = true → debounceFor level state running ms = running) := by
  unfold debounceFor
  refine ⟨fun h => if_pos h, fun h hn => ?_, fun h hr => ?_⟩
  · rw [if_neg h, hn]
  · obtain ⟨d, hd⟩ := Option.isSome_iff_exists.mp hr
    rw [if_neg h, hd]

theorem exec_loopLevelChange_up {s : State} {n : LaneId} {i : LoopId} (level : Bool) (hu : s.up = true)
    (hf : ((s.lane n).loop i).faultIn = false) :
    exec (.loopLevelChange n i level) s =
      .next (s.setLane n ((s.lane n).setLoop i { (s.lane n).loop i with
        level := level
        debounce := debounceFor level ((s.lane n).loop i).occupied ((s.lane n).loop i).debounce
          (s.lane n).setup.loopFilter })) := by
  rw [exec_loopLevelChange, if_pos hu]
  unfold Loop.levelChange
  rw [if_neg (ne_true_of_eq_false hf)]

/-- Settles O19: the debounce that the level asks for. -/
theorem loopLevelRunsDebounce : Obligations.LoopLevelRunsDebounce := by
  intro s n i level hu hf p
  obtain ⟨hstop, hstart, hrun⟩ := debounceFor_spec level p.occupied p.debounce (s.lane n).setup.loopFilter
  refine ⟨_, exec_loopLevelChange_up level hu hf, ?_⟩
  rw [setLane_lane_self, loop_setLoop]
  exact ⟨rfl, rfl, hstop, hstart, hrun, rfl⟩

theorem exec_limitInputChange_up {s : State} (hu : s.up = true) (n : LaneId) (i : LimitId) (level : Bool) :
    exec (.limitInputChange n i level) s =
      .next (s.setLane n ((s.lane n).setLimit i (((s.lane n).limit i).levelChange level))) := by
  rw [exec_limitInputChange, if_pos hu]

/-! ### Limit events -/

/-- A limit that takes a level jams against the other one. -/
theorem bothLimits_setLimit (k : Lane) {i o : LimitId} (h : o ≠ i) (p : Limit) :
    (k.setLimit i p).bothLimits = (p.active && (k.limit o).active) := by
  cases i with
  | up =>
    cases o with
    | up => exact absurd rfl h
    | down => rfl
  | down =>
    cases o with
    | up => exact Bool.and_comm _ _
    | down => exact absurd rfl h

theorem setLimit_barrier (k : Lane) (i : LimitId) (p : Limit) :
    (k.setLimit i p).barrier = k.barrier ∧ (k.setLimit i p).setup = k.setup ∧ k.sameCause (k.setLimit i p) := by
  cases i <;> exact ⟨rfl, rfl, rfl, rfl, rfl, rfl, rfl⟩

section
variable {k : Lane} {i : LimitId}

theorem limitEvent_both (hb : k.bothLimits = true)
    (h : k.barrier = .down ∨ k.barrier = .raising ∨ k.barrier = .up ∨ k.barrier = .lowering) :
    k.limitEvent i = k.jamFor .bothLimits := by
  unfold Lane.limitEvent
  rw [if_pos (by rcases h with h | h | h | h <;> simp [hb, h])]

theorem limitEvent_up (hb : k.bothLimits = false) (hu : k.up.active = true) (h : k.barrier = .raising) :
    k.limitEvent .up = k.enterUp := by
  simp [Lane.limitEvent, hb, hu, h]

theorem limitEvent_down (hb : k.bothLimits = false) (hd : k.down.active = true) (h : k.barrier = .lowering) :
    k.limitEvent .down = k.enterDown := by
  simp [Lane.limitEvent, hb, hd, h]

theorem limitEvent_still (h : k.barrier = .unresolved ∨ k.barrier = .jammed) : k.limitEvent i = { lane := k } := by
  rcases h with h | h <;> simp [Lane.limitEvent, h]

end

theorem exec_limitDebounceExpiry_acts {s : State} {n : LaneId} {i : LimitId} {x : Debounce} (hu : s.up = true)
    (hx : ((s.lane n).limit i).debounce = some x) :
    exec (.limitDebounceExpiry n i) s = .next (finish s.register.mode
      (applyLane n (((s.lane n).setLimit i ⟨((s.lane n).limit i).level, x.target, none⟩).limitEvent i) s)) := by
  rw [exec_limitDebounceExpiry, yardEvent_acts _ _ s hu (by simp [hx]), limitDebounced_of_running hx]

theorem limit_of_sameSite {k k' : Lane} (h : k.sameSite k') (i : LimitId) : k'.limit i = k.limit i := by
  obtain ⟨_, _, _, _, hup, hdown, _⟩ := h
  cases i with
  | up => exact hup
  | down => exact hdown

theorem loop_of_sameSite {k k' : Lane} (h : k.sameSite k') (i : LoopId) : k'.loop i = k.loop i := by
  obtain ⟨_, _, hdeck, hclear, _⟩ := h
  cases i with
  | deck => exact hdeck
  | clear => exact hclear

/-- Settles O24: the debounce of a limit, and its event by the other limit and the barrier. -/
theorem limitsEndTravel : Obligations.LimitsEndTravel := by
  refine ⟨fun s n i level hu => ?_, ?_⟩
  · obtain ⟨hstop, hstart, _⟩ :=
      debounceFor_spec level ((s.lane n).limit i).active ((s.lane n).limit i).debounce 50
    refine ⟨_, exec_limitInputChange_up hu n i level, ?_⟩
    rw [setLane_lane_self, limit_setLimit]
    exact ⟨rfl, rfl, hstop, hstart, rfl⟩
  · intro s n i x hu hx other b
    generalize hk : (s.lane n).setLimit i ⟨((s.lane n).limit i).level, x.target, none⟩ = k
    have hlimit : k.limit i = ⟨((s.lane n).limit i).level, x.target, none⟩ := by rw [← hk, limit_setLimit]
    have hboth : k.bothLimits = (x.target && other.active) := by
      rw [← hk]
      exact bothLimits_setLimit (s.lane n) (by cases i <;> decide) _
    obtain ⟨hb, hsetup, hcause⟩ := hk ▸ setLimit_barrier (s.lane n) i ⟨((s.lane n).limit i).level, x.target, none⟩
    obtain ⟨hc, hmark, hcount, hsettled, _⟩ := hcause
    obtain ⟨hsite, ⟨hc', hmark', hcount', _⟩, _⟩ := limitEvent_spec k i
    obtain ⟨w, hlane⟩ := finish_applyLane s.register.mode n (k.limitEvent i) s
    refine ⟨_, hk ▸ exec_limitDebounceExpiry_acts hu hx, ?_⟩
    have hkept : ((finish s.register.mode (applyLane n (k.limitEvent i) s)).lane n).limit i =
        ⟨((s.lane n).limit i).level, x.target, none⟩ := by
      rw [hlane, ← hlimit, ← limit_of_sameSite hsite]
      cases i <;> rfl
    rw [hkept, hlane]
    refine ⟨rfl, rfl, hc'.trans hc, hmark'.trans hmark, hcount'.trans hcount, fun ht ho hbar => ?_,
      fun ht ho hi hbar => ?_, fun ht ho hi hbar => ?_, fun hbar => ?_⟩
    · have hjam : k.limitEvent i = k.jamFor .bothLimits :=
        limitEvent_both (by rw [hboth, ht, ho]; rfl) (by rw [hb]; exact hbar)
      have htold := finish_jam_told s.register.mode (n := n) (r := k.limitEvent i) s (by rw [hjam]; rfl)
      rw [hjam] at htold ⊢
      exact ⟨rfl, rfl, rfl, rfl, rfl, htold⟩
    · subst hi
      have hfree : k.bothLimits = false := by rw [hboth, ho, Bool.and_false]
      have hdown : k.down.active = false := by rw [← hk]; exact ho
      have hpending : k.pendingCause (fun _ => true) = (s.lane n).pendingCause (fun _ => true) := by
        unfold Lane.pendingCause
        rw [hc]
      have hup : k.up.active = true := (congrArg Limit.active hlimit).trans ht
      rw [limitEvent_up hfree hup (hb.trans hbar)]
      rw [← hpending, ← hsettled, ← hsetup]
      exact enterUp_free hdown
    · subst hi
      have hfree : k.bothLimits = false := by rw [hboth, ho, Bool.and_false]
      have hdown : k.down.active = true := (congrArg Limit.active hlimit).trans ht
      rw [limitEvent_down hfree hdown (hb.trans hbar), enterDown_free hfree]
      exact ⟨rfl, rfl, rfl⟩
    · rw [limitEvent_still (by rw [hb]; exact hbar)]
      exact hb

/-! ### The travel and the settle timer -/

theorem travelExpired_jams {k : Lane} (h : k.barrier = .raising ∨ k.barrier = .lowering) :
    k.travelExpired = k.jamFor (if k.barrier = .raising then .travelRaising else .travelLowering) := by
  rcases h with h | h <;> simp [Lane.travelExpired, h]

theorem exec_travelTimerExpiry_acts {s : State} {n : LaneId} (hu : s.up = true)
    (ht : (s.lane n).travel.isSome = true) :
    exec (.travelTimerExpiry n) s =
      .next (finish s.register.mode (applyLane n (s.lane n).travelExpired s)) :=
  (exec_travelTimerExpiry n s).trans (yardEvent_acts _ _ s hu ht)

theorem exec_settleTimerExpiry_acts {s : State} {n : LaneId} (hu : s.up = true)
    (ht : (s.lane n).settle.isSome = true) :
    exec (.settleTimerExpiry n) s =
      .next (finish s.register.mode (applyLane n (s.lane n).settleExpired s)) :=
  (exec_settleTimerExpiry n s).trans (yardEvent_acts _ _ s hu ht)

/-- R83, R84: a settled arm that is UP without a PENDING cause lowers, every other one stays. -/
theorem settleExpired_barrier (k : Lane) :
    (k.barrier ≠ .up ∨ k.pendingCause (fun _ => true) = true → k.settleExpired.lane.barrier = k.barrier) ∧
      (k.barrier = .up → k.pendingCause (fun _ => true) = false → k.bothLimits = false →
        k.settleExpired.lane.barrier = (if k.down.active then .down else .lowering)) := by
  obtain ⟨_, _, _, _, hstay, hlower⟩ := judgeLower_spec { k with settle := none, settled := true }
  obtain ⟨_, _, _, _, hbarrier⟩ := enterLowering_spec { k with settle := none, settled := true }
  have hconditions : ({ k with settle := none, settled := true } : Lane).lowerConditions =
      (k.barrier == .up && !k.pendingCause (fun _ => true)) := Bool.and_true _
  rw [hconditions] at hstay hlower
  unfold Lane.settleExpired
  refine ⟨fun h => ?_, fun hup hp hb => ?_⟩
  · rw [hstay (by rcases h with h | h <;> simp [h])]
  · have hfree : ({ k with settle := none, settled := true } : Lane).bothLimits = false := hb
    rw [hlower (by simp [hup, hp]), hbarrier, hfree]
    rfl

/-- Settles O25: the jam of a travel timeout, and the lower conditions judged at the settle timer's end. -/
theorem barrierTimersAct : Obligations.BarrierTimersAct := by
  refine ⟨fun s n hu ht hb => ?_, fun s n hu ht => ?_⟩
  · obtain ⟨w, hlane⟩ := finish_applyLane s.register.mode n (s.lane n).travelExpired s
    have hjam := travelExpired_jams hb
    have htold := finish_jam_told s.register.mode (n := n) (r := (s.lane n).travelExpired) s (by rw [hjam]; rfl)
    refine ⟨_, exec_travelTimerExpiry_acts hu ht, ?_⟩
    rw [hlane]
    rw [hjam] at htold ⊢
    exact ⟨rfl, rfl, rfl, rfl, rfl, rfl, rfl, rfl, rfl, htold⟩
  · obtain ⟨w, hlane⟩ := finish_applyLane s.register.mode n (s.lane n).settleExpired s
    obtain ⟨_, hcause, _, _, hsettled, hsettle, _⟩ := settleExpired_spec (s.lane n)
    obtain ⟨hstay, hlower⟩ := settleExpired_barrier (s.lane n)
    refine ⟨_, exec_settleTimerExpiry_acts hu ht, ?_⟩
    rw [hlane]
    exact ⟨hsettled, hsettle, hcause, hstay, hlower⟩

/-! ### The resolution -/

/-- R87: the lane as its resolution begins to read limits and loop. -/
def Lane.resolving (k : Lane) : Lane := { k with resolution := none, cause := none, count := 0 }

section
variable {k : Lane}

theorem resolve_both (h : k.bothLimits = true) : k.resolve = k.resolving.jamFor .bothLimits := if_pos h

theorem resolve_down (hu : k.up.active = false) (hd : k.down.active = true) :
    k.resolve = { lane := { k.resolving with barrier := .down, jam := .none, travel := none } } := by
  have hb := bothLimits_of_up hu
  have hentered : k.resolve = k.resolving.enterDown := by
    simp [Lane.resolve, hb, hd, Lane.resolving]
  rw [hentered, enterDown_free (k := k.resolving) hb]
  rfl

theorem resolve_up (hu : k.up.active = true) (hd : k.down.active = false) :
    k.resolve = k.resolving.safetyFound.enterUp := by
  simp [Lane.resolve, bothLimits_of_down hd, hu, hd, Lane.resolving]

theorem resolve_occupied (hu : k.up.active = false) (hd : k.down.active = false) (ho : k.clearLoop.occupied = true) :
    k.resolve = { lane := { k.resolving.safetyFound with
      barrier := .raising, travel := some (k.setup.travel * 1000) } } := by
  have hentered : k.resolve = k.resolving.safetyFound.enterRaising := by
    simp [Lane.resolve, bothLimits_of_down hd, hu, hd, ho, Lane.resolving]
  rw [hentered, enterRaising_free (k := k.resolving.safetyFound) hu]
  rfl

theorem resolve_clear (hu : k.up.active = false) (hd : k.down.active = false) (ho : k.clearLoop.occupied = false) :
    k.resolve = { lane := { k.resolving with barrier := .lowering, travel := some (k.setup.travel * 1000) } } := by
  have hentered : k.resolve = k.resolving.enterLowering := by
    simp [Lane.resolve, bothLimits_of_down hd, hu, hd, ho, Lane.resolving]
  rw [hentered, enterLowering_free (k := k.resolving) hd]
  rfl

/-- R87: the arm found up: a SAFETY cause, PENDING while the CLEAR loop reads occupied. -/
theorem resolve_up_spec (hu : k.up.active = true) (hd : k.down.active = false) :
    k.resolve.lane.resolution = none ∧
      k.resolve.lane.cause = some ⟨.safety, if k.clearLoop.occupied then .pending else .withdrawn⟩ ∧
      k.resolve.lane.mark = (k.mark || (k.clearLoop.occupied && !k.clearLoop.fault)) ∧
      k.resolve.lane.barrier = (if !k.clearLoop.occupied && k.settled then .lowering else .up) := by
  rw [resolve_up hu hd]
  have hb : k.resolving.safetyFound.bothLimits = false := bothLimits_of_down hd
  have hp : k.resolving.safetyFound.pendingCause (fun _ => true) = k.clearLoop.occupied := by
    cases ho : k.clearLoop.occupied <;>
      simp [Lane.pendingCause, Lane.safetyFound, Lane.resolving, Cause.isPending, ho]
  by_cases h : k.clearLoop.occupied = true ∨ k.settled = false
  · rw [enterUp_stays hb (by rw [hp]; exact h)]
    refine ⟨rfl, rfl, rfl, (if_neg ?_).symm⟩
    rcases h with h | h <;> simp [h]
  · obtain ⟨ho, hs⟩ := not_or.mp h
    simp only [Bool.not_eq_true, Bool.not_eq_false] at ho hs
    rw [enterUp_lowers hb (hp.trans ho) hs, enterLowering_free (k := k.resolving.safetyFound.atTop) hd]
    exact ⟨rfl, rfl, rfl, (if_pos (by rw [ho, hs]; rfl)).symm⟩

theorem bothLimits_of_active (hu : k.up.active = true) (hd : k.down.active = true) : k.bothLimits = true := by
  simp [Lane.bothLimits, hu, hd]

theorem resolve_resolution : k.resolve.lane.resolution = none := by
  cases hd : k.down.active with
  | true =>
    cases hu : k.up.active with
    | true =>
      rw [resolve_both (bothLimits_of_active hu hd)]
      rfl
    | false =>
      rw [resolve_down hu hd]
      rfl
  | false =>
    cases hu : k.up.active with
    | true => exact (resolve_up_spec hu hd).1
    | false =>
      cases ho : k.clearLoop.occupied with
      | true =>
        rw [resolve_occupied hu hd ho]
        rfl
      | false =>
        rw [resolve_clear hu hd ho]
        rfl

end

theorem exec_resolutionTimerExpiry_acts {s : State} {n : LaneId} (hu : s.up = true)
    (hr : (s.lane n).resolution.isSome = true) (hb : (s.lane n).barrier = .unresolved) :
    exec (.resolutionTimerExpiry n) s = .next (finish s.register.mode (applyLane n (s.lane n).resolve s)) :=
  (exec_resolutionTimerExpiry n s).trans (yardEvent_acts _ _ s hu (by simp [hr, hb]))

/-- Settles O26: what the two limits and the CLEAR loop show. -/
theorem resolutionReadsLimitsAndLoop : Obligations.ResolutionReadsLimitsAndLoop := by
  intro s n hup hr hb up down occ
  obtain ⟨w, hlane⟩ := finish_applyLane s.register.mode n (s.lane n).resolve s
  obtain ⟨_, hcount, _⟩ := resolve_spec (s.lane n)
  refine ⟨_, exec_resolutionTimerExpiry_acts hup hr hb, ?_⟩
  rw [hlane]
  refine ⟨resolve_resolution, hcount, fun hu hd => ?_, fun hu hd => ?_, fun hu hd ho => ?_, fun hu hd ho => ?_,
    fun hu hd ho => ?_, fun hu hd ho => ?_, fun ho hd hf => ?_⟩
  · have hjam := resolve_both (bothLimits_of_active hu hd)
    have htold := finish_jam_told s.register.mode (n := n) (r := (s.lane n).resolve) s (by rw [hjam]; rfl)
    rw [hjam] at htold ⊢
    exact ⟨rfl, rfl, rfl, htold⟩
  · rw [resolve_down hu hd]
    exact ⟨rfl, rfl⟩
  · obtain ⟨_, hcause, _, hbarrier⟩ := resolve_up_spec hu hd
    rw [show (s.lane n).clearLoop.occupied = false from ho] at hcause hbarrier
    exact ⟨hcause, hbarrier⟩
  · obtain ⟨_, hcause, _, hbarrier⟩ := resolve_up_spec hu hd
    rw [show (s.lane n).clearLoop.occupied = true from ho] at hcause hbarrier
    exact ⟨hcause, hbarrier⟩
  · rw [resolve_clear hu hd ho]
    exact ⟨rfl, rfl⟩
  · rw [resolve_occupied hu hd ho]
    refine ⟨rfl, ?_⟩
    show some (Cause.mk .safety (if (s.lane n).clearLoop.occupied then .pending else .withdrawn)) = _
    rw [show (s.lane n).clearLoop.occupied = true from ho]
    rfl
  · have hmark : ((s.lane n).mark || ((s.lane n).clearLoop.occupied && !(s.lane n).clearLoop.fault)) = true := by
      rw [show (s.lane n).clearLoop.occupied = true from ho, hf]
      exact Bool.or_true _
    cases hu : (s.lane n).up.active with
    | true => exact (resolve_up_spec hu hd).2.2.1.trans hmark
    | false =>
      rw [resolve_occupied hu hd ho]
      exact hmark

end Sys2Proof.Machine
end

section
/-! PROOF. Loop events at the barrier (R73, R74, R75, R82, R83, R85): the debounce's end, the CLEAR occupied event that
reverses the arm, and the detector fault. -/

namespace Sys2Proof.Machine

/-! ### The end of a loop debounce -/

/-- R73: the lane whose loop has taken a level at the end of its debounce. -/
def Lane.loopSettled (k : Lane) (i : LoopId) (level : Bool) : Lane := k.setLoop i ((k.loop i).settled level)

/-- The part whose loop has taken a level, before the event of that level is handed on (R75). -/
def State.loopSettled (s : State) (n : LaneId) (i : LoopId) (level : Bool) : State :=
  s.setLane n ((s.lane n).loopSettled i level)

@[simp] theorem loopSettled_lane (s : State) (n : LaneId) (i : LoopId) (level : Bool) :
    (s.loopSettled n i level).lane n = (s.lane n).loopSettled i level := setLane_lane_self _ _ _

theorem loopSettled_loop (k : Lane) (i : LoopId) (level : Bool) :
    ((k.loopSettled i level).loop i).occupied = level ∧ ((k.loopSettled i level).loop i).debounce = none := by
  unfold Lane.loopSettled
  rw [loop_setLoop]
  exact ⟨rfl, rfl⟩

/-- The state before the close of the event with which a loop debounce ends. -/
def State.loopDone (s : State) (n : LaneId) (i : LoopId) (level : Bool) : State :=
  applyLane n (((s.lane n).loopSettled i level).loopEvent i level false) ((s.loopSettled n i level).loopHeard n i level)

theorem exec_loopDebounceExpiry_acts {s : State} {n : LaneId} {i : LoopId} {x : Debounce} (hu : s.up = true)
    (hx : ((s.lane n).loop i).debounce = some x) :
    exec (.loopDebounceExpiry n i) s = .next (finish s.register.mode (s.loopDone n i x.target)) := by
  have hevent := loopEvent_eq n i x.target false (s.loopSettled n i x.target)
  rw [loopSettled_lane] at hevent
  rw [exec_loopDebounceExpiry, yardEvent_acts _ _ s hu (by simp [hx]), loopDebounced_of_running hx]
  exact congrArg (fun u => Host.Outcome.next (finish s.register.mode u)) hevent

theorem finish_loopDone_lane (m : YardMode) (s : State) (n : LaneId) (i : LoopId) (level : Bool) :
    ∃ w, (finish m (s.loopDone n i level)).lane n =
      { (((s.lane n).loopSettled i level).loopEvent i level false).lane.withOutputs with word := w } :=
  finish_applyLane m n _ _

/-- The loop that has settled reads so at the close of its event. -/
theorem finish_loopDone_loop (m : YardMode) (s : State) (n : LaneId) (i : LoopId) (level : Bool) :
    (((finish m (s.loopDone n i level)).lane n).loop i).occupied = level ∧
      (((finish m (s.loopDone n i level)).lane n).loop i).debounce = none := by
  obtain ⟨w, hlane⟩ := finish_loopDone_lane m s n i level
  obtain ⟨hsite, _⟩ := laneLoopEvent_spec ((s.lane n).loopSettled i level) i level false
  have hloop : ((finish m (s.loopDone n i level)).lane n).loop i = ((s.lane n).loopSettled i level).loop i := by
    rw [hlane, ← loop_of_sameSite hsite]
    cases i <;> rfl
  rw [hloop]
  exact loopSettled_loop _ _ _

/-! ### CLEAR occupied -/

/-- R83, R85: the lane unsettled by a CLEAR occupied event, with the SAFETY cause of a reversal. -/
def Lane.reversing (k : Lane) (f : Bool) : Lane :=
  { k with settle := none, settled := false, mark := k.mark || k.marks f, cause := some ⟨.safety, .pending⟩ }

/-- R85, R80, R81: the reversal by the limits. -/
theorem clearOccupied_reverses {k : Lane} (h : k.barrier = .lowering) (f : Bool) :
    (k.up.active = false → (k.clearOccupied f).lane.barrier = .raising ∧
        (k.clearOccupied f).lane.travel = some (k.setup.travel * 1000)) ∧
      (k.bothLimits = false → k.up.active = true → (k.clearOccupied f).lane.barrier = .up) ∧
      (k.bothLimits = true → (k.clearOccupied f).lane.barrier = .jammed ∧
        (k.clearOccupied f).lane.jam = .bothLimits) := by
  have hreversed : k.clearOccupied f = (k.reversing f).enterRaising := if_pos h
  rw [hreversed]
  refine ⟨fun hu => ?_, fun hb hu => ?_, fun hb => ?_⟩
  · rw [enterRaising_free (k := k.reversing f) hu]
    exact ⟨rfl, rfl⟩
  · rw [enterRaising_up (k := k.reversing f) hb hu, enterUp_stays (k := k.reversing f) hb (.inl rfl)]
    rfl
  · rw [enterRaising_both (k := k.reversing f) hb]
    exact ⟨rfl, rfl⟩

/-- R82: a CLEAR occupied event that is no fault's marks a passage begun under an arm that is not down. -/
theorem marks_event (k : Lane) :
    (k.barrier = .raising ∨ k.barrier = .up ∨ k.barrier = .lowering → k.marks false = true) ∧
      (k.barrier = .down ∨ k.barrier = .jammed ∨ k.barrier = .unresolved → k.marks false = false) := by
  refine ⟨fun h => ?_, fun h => ?_⟩ <;> rcases h with h | h | h <;> simp [Lane.marks, h]

/-- Settles O21: the settle timer, the mark and the reversal at the close of the event. -/
theorem clearOccupiedReversesArm : Obligations.ClearOccupiedReversesArm := by
  intro s n x hu hx ht
  have hexec := exec_loopDebounceExpiry_acts (i := .clear) hu hx
  rw [ht] at hexec
  obtain ⟨w, hlane⟩ := finish_loopDone_lane s.register.mode s n .clear true
  obtain ⟨hoccupied, _⟩ := finish_loopDone_loop s.register.mode s n .clear true
  obtain ⟨⟨_, _, _, hclear, _⟩, hsettle, hsettled, hmark, hcount, _, _, hguard, hstay, hcause⟩ :=
    clearOccupied_spec ((s.lane n).loopSettled .clear true) false
  have hreverses : (s.lane n).barrier = .lowering → _ := fun h =>
    clearOccupied_reverses (k := (s.lane n).loopSettled .clear true) h false
  obtain ⟨hmarks, hunmarked⟩ := marks_event ((s.lane n).loopSettled .clear true)
  refine ⟨_, hexec, hoccupied, ?_⟩
  rw [hlane]
  refine ⟨hsettle, hsettled, ?_, fun h => ?_, fun h => ?_, fun h => ?_⟩
  · obtain ⟨hnot, _⟩ := hguard (by rw [hclear]; rfl)
    exact beq_eq_false_iff_ne.mpr hnot
  · obtain ⟨hfree, hup, hboth⟩ := hreverses h
    refine ⟨hmark.trans ?_, hcause h, hcount, fun _ hu => ?_, hup, hboth⟩
    · rw [hmarks (.inr (.inr h)), Bool.or_true]
    · obtain ⟨hraising, htravel⟩ := hfree hu
      exact ⟨hraising, beq_iff_eq.mpr hraising, htravel⟩
  · obtain ⟨hbarrier, hkept⟩ := hstay (by rcases h with h | h <;> simp [Lane.loopSettled, Lane.setLoop, h])
    refine ⟨hmark.trans ?_, hkept, hbarrier⟩
    rw [hmarks (by rcases h with h | h; exacts [.inl h, .inr (.inl h)]), Bool.or_true]
  · obtain ⟨hbarrier, _⟩ := hstay (by rcases h with h | h | h <;> simp [Lane.loopSettled, Lane.setLoop, h])
    refine ⟨hmark.trans ?_, hbarrier⟩
    rw [hunmarked h, Bool.or_false]
    rfl

/-! ### Detector faults -/

theorem faultAsserted_occupied {s : State} {n : LaneId} {i : LoopId} (h : ((s.lane n).loop i).occupied = true) :
    faultAsserted n i s =
      (s.setLoop n i ((s.lane n).loop i).faultAssert).offerAll (.laneEvent n (.loopFault i)) := if_pos h

/-- R74: the part that has told a detector fault, before the occupied event of its loop. -/
def State.faultTold (s : State) (n : LaneId) (i : LoopId) : State :=
  (s.setLane n ((s.lane n).setLoop i ((s.lane n).loop i).faultAssert)).offerAll (.laneEvent n (.loopFault i))

theorem faultTold_lane (s : State) (n : LaneId) (i : LoopId) :
    (s.faultTold n i).lane n = (s.lane n).setLoop i ((s.lane n).loop i).faultAssert :=
  setLane_lane_self s n _

theorem faultAsserted_eq (s : State) (n : LaneId) (i : LoopId) :
    faultAsserted n i s =
      if ((s.lane n).loop i).occupied then s.faultTold n i else loopEvent n i true true (s.faultTold n i) := rfl

theorem yard_faultAsserted (s : State) (n : LaneId) (i : LoopId) :
    YardOnly (s.faultTold n i) (faultAsserted n i s) := by
  rw [faultAsserted_eq]
  split
  · exact .refl _
  · exact yard_loopEvent n i true true _

/-- R74: the loop reads occupied, with its fault, before and after the event. -/
theorem faultAsserted_loop (s : State) (n : LaneId) (i : LoopId) :
    ((faultAsserted n i s).lane n).loop i = ((s.lane n).loop i).faultAssert := by
  rw [faultAsserted_eq]
  split
  · rw [faultTold_lane, loop_setLoop]
  · obtain ⟨hsite, _⟩ := laneLoopEvent_spec ((s.faultTold n i).lane n) i true true
    rw [loopEvent_eq, applyLane_lane_self, loop_of_sameSite hsite, faultTold_lane, loop_setLoop]

/-- R74, R82, R83: the CLEAR occupied event of a fault unsettles the lane and sets no mark. -/
theorem faultAsserted_clear {s : State} {n : LaneId} (h : ((s.lane n).loop .clear).occupied = false) :
    ((faultAsserted n .clear s).lane n).settled = false ∧
      ((faultAsserted n .clear s).lane n).mark = (s.lane n).mark := by
  obtain ⟨_, _, hsettled, hmark, _⟩ := clearOccupied_spec ((s.faultTold n .clear).lane n) true
  rw [faultAsserted_eq, if_neg (ne_true_of_eq_false h), loopEvent_eq, applyLane_lane_self]
  refine ⟨hsettled, hmark.trans ?_⟩
  rw [faultTold_lane]
  exact Bool.or_false _

/-- Settles O23: the fault told and its event; the debounce resumed at the fault's end. -/
theorem detectorFaultReadsOccupied : Obligations.DetectorFaultReadsOccupied := by
  intro s n i hu
  refine ⟨fun hf => ?_, fun hf => ?_⟩
  · obtain ⟨_, w, hlane⟩ := finish_lane s.register.mode (faultAsserted n i s) n
    have hloop := faultAsserted_loop s n i
    have hset : (s.setLoop n i ((s.lane n).loop i).faultAssert).links = s.links := rfl
    have htold : s.tells (faultAsserted n i s) (.laneEvent n (.loopFault i)) := fun l =>
      (yard_faultAsserted s n i).links.told _ l _ laneEvent_ne_word (told_offerAll s.links _ l laneEvent_ne_word)
    refine ⟨_, (exec_detectorFaultAsserted_up hu n i).trans (yardEvent_acts _ _ s hu (by simp [hf])), ?_,
      tells_finish _ laneEvent_ne_word htold, fun hi ho => ?_⟩
    · rw [hlane]
      refine Eq.trans ?_ hloop
      cases i <;> rfl
    · subst hi
      rw [hlane]
      exact faultAsserted_clear ho
  · obtain ⟨_, w, hlane⟩ := finish_lane s.register.mode (faultCleared n i s) n
    have hcleared : (faultCleared n i s).lane n =
        (s.lane n).setLoop i (((s.lane n).loop i).faultClear (s.lane n).setup.loopFilter) := setLane_lane_self _ _ _
    rw [hcleared] at hlane
    refine ⟨_, (exec_detectorFaultCleared_up hu n i).trans (yardEvent_acts _ _ s hu hf), ?_⟩
    rw [hlane]
    cases i <;> exact ⟨rfl, rfl, rfl, rfl, rfl, rfl⟩

end Sys2Proof.Machine
end

section
/-! PROOF. The state after reset has the properties that every step keeps (95_what_each_step_holds.md). -/

namespace Sys2Proof.Machine

theorem reset_lane (n : LaneId) : State.reset.lane n = Lane.reset n := by
  revert n
  decide +kernel

theorem reset_barriersSafe : State.reset.barriersSafe := by
  refine barriersSafe_of_running Phase.noConfusion (fun n => ?_)
  rw [reset_lane]
  refine ⟨?_, clearGuarded_of_clear _ rfl⟩
  simp [Lane.shown, Lane.reset, Lane.pendingCause]

/-- Each link's queue holds the words of three lanes at most, one of each. -/
theorem reset_bounded (l : LinkId) : (State.reset.link l).bounded := by
  unfold LinkState.bounded
  revert l
  decide +kernel

theorem reset_unbound (n : LaneId) (v : Nat) : Register.reset.bindings.get n ≠ some v := by
  have hnone : Register.reset.bindings.get n = none := by
    revert n
    decide
  rw [hnone]
  exact nofun

theorem reset_boundOnce : Register.reset.boundOnce :=
  ⟨fun n v h => absurd h (reset_unbound n v), fun n _ v h => absurd h (reset_unbound n v)⟩

theorem reset_distinct : Register.reset.distinct := by simp [Register.distinct, Register.reset]

theorem reset_sequenced : Journal.reset.sequenced := by simp [Journal.sequenced, Journal.reset]

theorem reset_withinHeadroom : State.reset.withinHeadroom := by
  unfold State.withinHeadroom
  decide +kernel

/-- Settles O58: the empty register and journal, the words of three lanes queued, the lanes unresolved. -/
theorem resetHasKeptProperties : Obligations.ResetHasKeptProperties :=
  ⟨reset_barriersSafe, reset_bounded, reset_distinct, reset_boundOnce, YardMode.noConfusion, reset_sequenced,
    reset_withinHeadroom⟩

end Sys2Proof.Machine
end

section
/-! PROOF. The requests on a barrier (R88, R89, R90): MANUAL_RAISE, LOWER_RESET and RERAISE. -/

namespace Sys2Proof.Machine

/-! ### MANUAL_RAISE -/

theorem exec_manualRaise (l : LinkId) (tag : Byte) (n : LaneId) (s : State) :
    exec (.manualRaise l tag (be1 n.val)) s = .next (request l 0x10 tag gateOffice (some n) manualRaiseBody s) := by
  rw [← quadField_be1 n]
  rfl

section
variable {k : Lane}

theorem pendingCause_of_visit (h : k.pendingCause Cause.isVisit = true) : k.pendingCause (fun _ => true) = true := by
  unfold Lane.pendingCause at h ⊢
  split at h
  · simpa using (Bool.and_eq_true_iff.mp h).1
  · cases h

theorem giveCause_pending (c : CauseKind) : (k.giveCause c).pendingCause (fun _ => true) = true := rfl

/-- R88: the cause of a MANUAL_RAISE is PENDING, a VISIT's or MANUAL's. -/
theorem manualCause_pending : k.manualCause.pendingCause (fun _ => true) = true := by
  unfold Lane.manualCause
  split
  · exact pendingCause_of_visit ‹_›
  · exact giveCause_pending _

/-- R88: the cause of a MANUAL_RAISE is given to the arm and its limits as they are. -/
theorem manualCause_arm :
    k.manualCause.barrier = k.barrier ∧ k.manualCause.bothLimits = k.bothLimits ∧ k.manualCause.up = k.up ∧
      k.manualCause.jam = k.jam := by
  unfold Lane.manualCause
  split <;> exact ⟨rfl, rfl, rfl, rfl⟩

theorem manualRaise_raised (h : k.barrier = .raising ∨ k.barrier = .up) :
    k.manualRaise = { lane := k.manualCause } := by
  unfold Lane.manualRaise
  rcases h with h | h <;> rw [h]

theorem manualRaise_raises (hr : k.barrier ≠ .raising) (hu : k.barrier ≠ .up) :
    k.manualRaise = k.manualCause.enterRaising := by
  unfold Lane.manualRaise
  split
  iterate 4 rfl
  · exact absurd ‹_› hr
  · exact absurd ‹_› hu

end

/-- Settles O27: the cause of a MANUAL_RAISE, and the arm that is neither RAISING nor UP. -/
theorem manualRaiseRaises : Obligations.ManualRaiseRaises := by
  intro s l tag n hr ho
  obtain ⟨hsite, hcause, hcount, _⟩ := manualRaise_spec (s.lane n)
  obtain ⟨harm, hboth, hup, hjam⟩ := manualCause_arm (k := s.lane n)
  obtain ⟨hreplied, k, ht⟩ := request_taken (body := manualRaiseBody) hr (code := 0x10) (tag := tag) (x := n) ho
    (yard_applyLane n (s.lane n).manualRaise (s.handling l 0x10 tag) hsite) rfl
  obtain ⟨w, hlane⟩ := finish_applyLane s.register.mode n (s.lane n).manualRaise (s.handling l 0x10 tag)
  refine ⟨_, exec_manualRaise l tag n s, hreplied, ?_⟩
  rw [ht, setLink_lane, hlane]
  refine ⟨fun hv => ?_, fun hv => ?_, fun hb => ?_, fun hnr hnu => ?_, fun hj hra => ?_⟩
  · refine ⟨hcause.trans ?_, hcount.trans ?_⟩ <;> rw [Lane.manualCause, if_pos hv]
  · refine ⟨hcause.trans ?_, hcount.trans ?_⟩ <;> rw [Lane.manualCause, if_neg (ne_true_of_eq_false hv)] <;> rfl
  · rw [manualRaise_raised hb]
    exact harm
  · obtain ⟨hbarrier, hresolution, _⟩ := enterRaising_pending (manualCause_pending (k := s.lane n))
    rw [manualRaise_raises hnr hnu]
    refine ⟨hresolution, hbarrier.trans ?_⟩
    rw [hboth, hup]
  · have hraises := manualRaise_raises (k := s.lane n) (by rw [hj]; decide) (by rw [hj]; decide)
    obtain ⟨_, _, hkept⟩ := enterRaising_pending (manualCause_pending (k := s.lane n))
    rw [hraises] at hra ⊢
    exact (hkept hra).trans hjam

/-! ### A PENDING cause withdrawn -/

/-- R80: the state of an arm that starts to lower. -/
def Lane.lowered (k : Lane) : Barrier :=
  if k.bothLimits then .jammed else if k.down.active then .down else .lowering

/-- The cause with its PENDING status withdrawn. -/
def Lane.withdrawnCause (k : Lane) : Option Cause :=
  k.cause.map (fun c => if c.status = .pending then { c with status := .withdrawn } else c)

section
variable {k : Lane}

theorem withdrawnCause_pending (h : k.pendingCause (fun _ => true) = true) :
    k.withdrawnCause = k.cause.map (fun c => { c with status := .withdrawn }) := by
  unfold Lane.pendingCause at h
  unfold Lane.withdrawnCause
  cases hc : k.cause with
  | none => rfl
  | some c =>
    rw [hc] at h
    have hp : c.status = .pending := by simpa [Cause.isPending] using h
    simp [hp]

theorem withdrawnCause_other (h : k.pendingCause (fun _ => true) = false) : k.withdrawnCause = k.cause := by
  unfold Lane.pendingCause at h
  unfold Lane.withdrawnCause
  cases hc : k.cause with
  | none => rfl
  | some c =>
    rw [hc] at h
    have hp : c.status ≠ .pending := by simpa [Cause.isPending] using h
    simp [hp]

theorem markWithdrawn_pending : (k.markCause .withdrawn).pendingCause (fun _ => true) = false := by
  unfold Lane.markCause Lane.pendingCause
  cases k.cause <;> rfl

/-- R84: a withdrawn cause lowers the arm that is UP and settled, and no other. -/
theorem withdraw_barrier {p : Cause → Bool} (h : k.pendingCause p = true) :
    (k.withdraw p).lane.barrier = if k.barrier = .up ∧ k.settled = true then k.lowered else k.barrier := by
  obtain ⟨_, _, _, _, hstay, hlower⟩ := judgeLower_spec (k.markCause .withdrawn)
  obtain ⟨_, _, _, _, hbarrier⟩ := enterLowering_spec (k.markCause .withdrawn)
  have hconditions : (k.markCause .withdrawn).lowerConditions = (k.barrier == .up && k.settled) := by
    unfold Lane.lowerConditions
    rw [markWithdrawn_pending]
    exact congrArg (· && k.settled) (Bool.and_true _)
  have hjudged : k.withdraw p = (k.markCause .withdrawn).judgeLower := if_pos h
  rw [hconditions] at hstay hlower
  rw [hjudged]
  split
  · rename_i hup
    rw [hlower (by simp [hup]), hbarrier]
    rfl
  · rename_i hup
    rw [hstay (by simpa using hup)]
    rfl

end

/-! ### The register at the close of an event -/

/-- R98: the end of a capture reaches no register that holds no visit. -/
theorem endCapture_register_empty (d : DeckId) (o : CapOutcome) {s : State} (h : s.register.visits = []) :
    (endCapture d o s).register = s.register := by
  have hfind : ∀ v, s.register.find v = none := fun v => by simp [Register.find, h]
  unfold endCapture
  split
  · rfl
  · rename_i c _
    unfold handOutcome
    cases c.owner with
    | visitIn v | visitOut v =>
      dsimp only
      rw [hfind]
    | spot l => rfl

/-- R98: a CLOSING yard that closes at the end of an event keeps its visits, none, and its bindings. -/
theorem becomeClosed_register {s : State} (h : s.register.visits = []) :
    (becomeClosed s).register = { s.register with mode := .closed } := by
  refine becomeClosed_keeps (fun u => u.register = { s.register with mode := .closed }) rfl (fun u d hu _ => ?_)
  refine (endCapture_register_empty d _ (s := enterDeck d .sleep .none u) ?_).trans hu
  show u.register.visits = []
  rw [hu]
  exact h

/-- The close of an event changes the register's mode at most. -/
theorem finish_register (m : YardMode) (s : State) : ∃ y, (finish m s).register = { s.register with mode := y } := by
  obtain ⟨_, _, _, hregister, _⟩ := finish_parts m s _ rfl
  rw [hregister]
  unfold autoClose
  split
  · rename_i hclosing
    exact ⟨.closed, becomeClosed_register (List.isEmpty_iff.mp hclosing.2)⟩
  · exact ⟨s.register.mode, rfl⟩

/-! ### LOWER_RESET -/

theorem exec_lowerReset (l : LinkId) (tag : Byte) (n : LaneId) (s : State) :
    exec (.lowerReset l tag (be1 n.val)) s = .next (request l 0x11 tag gateOffice (some n) lowerResetBody s) := by
  rw [← quadField_be1 n]
  rfl

section
variable {n : LaneId} {s : State}

theorem lowerResetBody_disabled (h : s.disabled n = true) : lowerResetBody n s = ⟨s, .laneDisabled, []⟩ := by
  simp [lowerResetBody, checked, firstFailure, h, refuse]

theorem lowerResetBody_refuses (h : s.disabled n = false) (hr : (s.lane n).lowerReset = none) :
    lowerResetBody n s = ⟨s, .wrongState, []⟩ := by
  simp [lowerResetBody, checked, firstFailure, h, hr, refuse]

theorem lowerResetBody_passes {r : LaneStep} (h : s.disabled n = false) (hr : (s.lane n).lowerReset = some r) :
    lowerResetBody n s = taken s (applyLane n r s) .ok [] := by
  simp [lowerResetBody, checked, firstFailure, h, hr]

end

section
variable {k : Lane}

theorem lowerReset_rests (h : k.barrier = .down ∨ k.barrier = .lowering ∨ k.barrier = .unresolved) :
    k.lowerReset = none := by
  unfold Lane.lowerReset
  rcases h with h | h | h <;> rw [h]

theorem lowerReset_occupied (hb : k.barrier = .jammed) (ho : k.clearLoop.occupied = true) : k.lowerReset = none := by
  unfold Lane.lowerReset
  rw [hb]
  exact if_pos ho

theorem lowerReset_visit (hb : k.barrier = .raising ∨ k.barrier = .up) (hv : k.pendingCause Cause.isVisit = true) :
    k.lowerReset = none := by
  unfold Lane.lowerReset
  rcases hb with hb | hb <;> rw [hb] <;> exact if_pos hv

theorem lowerReset_raised (hb : k.barrier = .raising ∨ k.barrier = .up) (hv : k.pendingCause Cause.isVisit = false) :
    k.lowerReset = some (k.withdraw (fun _ => true)) := by
  unfold Lane.lowerReset
  rcases hb with hb | hb <;> rw [hb] <;> exact if_neg (ne_true_of_eq_false hv)

/-- R89: a JAMMED lane whose CLEAR loop is clear has its PENDING cause withdrawn and lowers. -/
theorem lowerReset_jammed (hb : k.barrier = .jammed) (ho : k.clearLoop.occupied = false) :
    ∃ r, k.lowerReset = some r ∧ r.lane.cause = k.withdrawnCause ∧ r.lane.barrier = k.lowered := by
  refine ⟨Lane.enterLowering (if k.pendingCause (fun _ => true) then k.markCause .withdrawn else k), ?_, ?_⟩
  · unfold Lane.lowerReset
    rw [hb]
    exact if_neg (ne_true_of_eq_false ho)
  · split
    · rename_i hp
      obtain ⟨_, ⟨hcause, _⟩, _, _, hbarrier⟩ := enterLowering_spec (k.markCause .withdrawn)
      exact ⟨hcause.trans (withdrawnCause_pending hp).symm, hbarrier⟩
    · rename_i hp
      obtain ⟨_, ⟨hcause, _⟩, _, _, hbarrier⟩ := enterLowering_spec k
      exact ⟨hcause.trans (withdrawnCause_other (Bool.eq_false_iff.mpr hp)).symm, hbarrier⟩

/-- R89: what LOWER_RESET withdraws and lowers at a raised arm. -/
theorem withdrawAll_spec :
    (k.withdraw (fun _ => true)).lane.cause = k.withdrawnCause ∧
      (k.pendingCause (fun _ => true) = true → k.barrier = .up → k.settled = true →
        (k.withdraw (fun _ => true)).lane.barrier = k.lowered) ∧
      (k.pendingCause (fun _ => true) = false ∨ k.barrier = .raising ∨ k.settled = false →
        (k.withdraw (fun _ => true)).lane.barrier = k.barrier) := by
  obtain ⟨_, _, _, _, _, _, _, hsame, hcause⟩ := withdraw_spec k (fun _ => true)
  cases hp : k.pendingCause (fun _ => true) with
  | true =>
    rw [withdraw_barrier hp]
    refine ⟨(hcause hp).trans (withdrawnCause_pending hp).symm, fun _ hb hs => if_pos ⟨hb, hs⟩, fun h => if_neg ?_⟩
    rintro ⟨hb, hs⟩
    simp [hb, hs] at h
  | false =>
    rw [hsame hp]
    exact ⟨(withdrawnCause_other hp).symm, Bool.noConfusion, fun _ => rfl⟩

end

section
variable {s : State} {l : LinkId} (hr : s.ready l) (ho : gateOffice (s.link l).role = true) (tag : Byte) {n : LaneId}
include hr ho

theorem lowerReset_unmoved {st : Status}
    (h : lowerResetBody n (s.handling l 0x11 tag) = ⟨s.handling l 0x11 tag, st, []⟩) :
    (request l 0x11 tag gateOffice (some n) lowerResetBody s).replied l tag 0x11 st [] ∧
      s.onlyLink (request l 0x11 tag gateOffice (some n) lowerResetBody s) l :=
  request_unmoved (body := lowerResetBody) hr ho h

/-- R89: a LOWER_RESET that is taken moves its lane, and keeps the bindings and the visits. -/
theorem lowerReset_moves {r : LaneStep} (hd : s.disabled n = false) (h : (s.lane n).lowerReset = some r) {t : State}
    (ht : request l 0x11 tag gateOffice (some n) lowerResetBody s = t) :
    t.replied l tag 0x11 .ok [] ∧ (t.lane n).cause = r.lane.cause ∧ (t.lane n).barrier = r.lane.barrier ∧
      t.bound n = s.bound n ∧ t.register.visits = s.register.visits := by
  obtain ⟨hsite, _, _, _, hpassage, _⟩ := lowerReset_spec _ r h
  obtain ⟨hreplied, k, hfinish⟩ := request_taken (body := lowerResetBody) hr (code := 0x11) (tag := tag) (x := n) ho
    (yard_applyLane n r (s.handling l 0x11 tag) hsite) (lowerResetBody_passes hd h)
  obtain ⟨w, hlane⟩ := finish_applyLane s.register.mode n r (s.handling l 0x11 tag)
  obtain ⟨y, hregister⟩ := finish_register s.register.mode (applyLane n r (s.handling l 0x11 tag))
  obtain ⟨_, _, hkept⟩ := applyLane_frame n r (s.handling l 0x11 tag)
  rw [hkept hpassage] at hregister
  subst ht
  refine ⟨hreplied, ?_⟩
  rw [hfinish, setLink_lane, hlane, setLink_register, setLink_bound]
  unfold State.bound
  rw [hregister]
  exact ⟨rfl, rfl, rfl, rfl⟩

end

/-- Settles O28: LOWER_RESET by the lane, its barrier and its cause. -/
theorem lowerResetLowers : Obligations.LowerResetLowers := by
  intro s l tag n hr ho b pending withdrawn lowered
  have hrefused : s.disabled n = false → (s.lane n).lowerReset = none → _ := fun hd h =>
    lowerReset_unmoved hr ho tag (n := n) (lowerResetBody_refuses (s := s.handling l 0x11 tag) hd h)
  refine ⟨_, exec_lowerReset l tag n s, fun hd => ?_, fun hd hb hclear => ?_, fun hd hb hclear => ?_,
    fun hd hb => ⟨fun hv => ?_, fun hv => ?_⟩, fun hd hb => ?_⟩
  · exact lowerReset_unmoved hr ho tag (lowerResetBody_disabled (s := s.handling l 0x11 tag) hd)
  · obtain ⟨r, hreset, hcause, hbarrier⟩ := lowerReset_jammed hb hclear
    obtain ⟨hreplied, hc, hmoved, hkept⟩ := lowerReset_moves hr ho tag hd hreset rfl
    exact ⟨hreplied, hc.trans hcause, hmoved.trans hbarrier, hkept⟩
  · exact hrefused hd (lowerReset_occupied hb hclear)
  · exact hrefused hd (lowerReset_visit hb hv)
  · obtain ⟨hcause, hlowers, hstays⟩ := withdrawAll_spec (k := s.lane n)
    obtain ⟨hreplied, hc, hmoved, _⟩ := lowerReset_moves hr ho tag hd (lowerReset_raised hb hv) rfl
    exact ⟨hreplied, hc.trans hcause, fun hp hup hs => hmoved.trans (hlowers hp hup hs),
      fun h => hmoved.trans (hstays h)⟩
  · exact hrefused hd (lowerReset_rests hb)

/-! ### RERAISE -/

theorem exec_reraise (l : LinkId) (tag : Byte) (n : LaneId) (s : State) :
    exec (.reraise l tag (be1 n.val)) s = .next (request l 0x05 tag everyRole (some n) reraiseBody s) := by
  rw [← quadField_be1 n]
  rfl

/-- R90: the cause of a RERAISE, for the state of its visit. -/
def Visit.causeOf (v : Visit) : CauseKind := if v.state = .entering then .admitted v.number else .released v.number

theorem causeOf_isVisit (v : Visit) (st : CauseStatus) : Cause.isVisit ⟨v.causeOf, st⟩ = true := by
  unfold Visit.causeOf
  split <;> rfl

theorem reraiseCause_of_bound {s : State} {n : LaneId} {v : Visit} (hb : s.bound n = some v.number)
    (hf : s.register.find v.number = some v)
    (hv : v.state = .entering ∧ (s.lane n).setup.direction = .entry ∨
      v.state = .released ∧ (s.lane n).setup.direction = .exit) :
    reraiseCause s n = some v.causeOf := by
  have hbound : s.boundVisit n = some v := by rw [State.boundVisit, hb, Option.bind_some, hf]
  unfold reraiseCause Visit.causeOf
  rw [hbound]
  rcases hv with ⟨hs, hd⟩ | ⟨hs, hd⟩ <;> simp [hs, hd]

theorem reraiseBody_passes {s : State} {n : LaneId} {c : CauseKind} (hd : s.disabled n = false)
    (hm : s.register.mode ≠ .closed) (hc : reraiseCause s n = some c) (hs : (s.deck n).service = false)
    (hb : (s.lane n).barrier = .down) (ho : (s.lane n).deckLoop.occupied = true) :
    reraiseBody n s = taken s (raiseLane n c s) .ok [] := by
  simp [reraiseBody, checked, firstFailure, hd, hm, hc, hs, hb, ho]

/-- R77: GO of a lane with a PENDING VISIT cause. -/
theorem goOut_of_visit {k : Lane} (h : k.pendingCause Cause.isVisit = true) :
    k.withOutputs.goOut = true ↔ k.barrier = .raising ∨ k.barrier = .up := by
  simp [Lane.withOutputs, h]

/-- Settles O29: the arm raised from DOWN for the bound visit, and GO with it. -/
theorem reraiseRaisesForVisit : Obligations.ReraiseRaisesForVisit := by
  intro s l tag n v hr hd hm hclosing hbound hfind hstate hs hb ho
  obtain ⟨_, hcause, hcount, _, _, _, _, _, _, hraises⟩ := raise_spec (s.lane n) v.causeOf
  have hbarrier := hraises (.inr (.inl hb))
  have hpasses := reraiseBody_passes (s := s.handling l 0x05 tag) hd hm
    (reraiseCause_of_bound (s := s.handling l 0x05 tag) hbound hfind hstate) hs hb ho
  have hyard := (quiet_raiseLane n v.causeOf (s.handling l 0x05 tag)).yard
  have hregister : (raiseLane n v.causeOf (s.handling l 0x05 tag)).register = s.register :=
    raiseLane_register n v.causeOf _
  obtain ⟨hreplied, k, ht⟩ := request_taken hr (everyRole_of_enabled hr.2.1) hyard hpasses
  obtain ⟨w, hlane⟩ := finish_applyLane s.register.mode n ((s.lane n).raise v.causeOf) (s.handling l 0x05 tag)
  obtain ⟨_, _, _, hkept, _⟩ := finish_frame s.register.mode (raiseLane n v.causeOf (s.handling l 0x05 tag))
    (by unfold State.closingHolds; rw [hregister]; exact hclosing)
  refine ⟨_, exec_reraise l tag n s, hreplied, ?_⟩
  rw [ht, setLink_lane, setLink_register]
  have hraised : (finish s.register.mode (raiseLane n v.causeOf (s.handling l 0x05 tag))).lane n = _ := hlane
  rw [hraised]
  refine ⟨hcause, hcount, hkept.trans hregister, hbarrier, ?_⟩
  have hvisit : ((s.lane n).raise v.causeOf).lane.pendingCause Cause.isVisit = true := by
    rw [Lane.pendingCause, hcause]
    exact causeOf_isVisit v .pending
  refine (goOut_of_visit hvisit).trans ?_
  show ((s.lane n).raise v.causeOf).lane.barrier = .raising ∨ ((s.lane n).raise v.causeOf).lane.barrier = .up ↔
    ((s.lane n).raise v.causeOf).lane.barrier ≠ .jammed
  rw [hbarrier]
  split
  · decide
  · split <;> decide

end Sys2Proof.Machine
end

section
/-! PROOF. A loop event at the deck and its capture unit (R43, R46, R59, R73, R75, R86, R105, R115): the register, the
deck and the capture before and at the close of the event. -/

namespace Sys2Proof.Machine

/-! ### The mode through an event -/

theorem handOutcome_failed_mode (n : LaneId) (w : CapOwner) (why : CapFail) (s : State) :
    (handOutcome n w (.failed why) s).register.mode = s.register.mode := by
  unfold handOutcome
  cases w with
  | visitIn v =>
    dsimp only
    split
    · rfl
    · split
      · cases why <;> rfl
      · rfl
  | visitOut v =>
    dsimp only
    split
    · rfl
    · split <;> rfl
  | spot l => rfl

theorem endCapture_failed_mode (d : DeckId) (why : CapFail) (s : State) :
    (endCapture d (.failed why) s).register.mode = s.register.mode := by
  unfold endCapture
  split
  · rfl
  · exact handOutcome_failed_mode d _ why _

theorem takePassage_mode (n : LaneId) (c : CauseKind) (s : State) :
    (takePassage n c s).register.mode = s.register.mode := by
  unfold takePassage
  cases c with
  | admitted v | released v =>
    dsimp only
    split <;> rfl
  | manual | safety => rfl

theorem bound_of_register {s u : State} (h : u.register = s.register) (n : LaneId) : u.bound n = s.bound n :=
  congrArg (fun r : Register => r.bindings.get n) h

/-- A passage is taken by the register alone. -/
theorem takePassage_register {n : LaneId} (c : CauseKind) {s u : State} (h : u.register = s.register) :
    (takePassage n c u).register = (takePassage n c s).register := by
  have hbound := bound_of_register h n
  unfold takePassage
  cases c with
  | admitted v | released v =>
    dsimp only
    rw [h, hbound]
    split
    · rfl
    · exact h
  | manual | safety => exact h

/-- R107, R116: what a lane step does to the register is its passage. -/
theorem applyLane_register (n : LaneId) (r : LaneStep) (s : State) :
    (applyLane n r s).register =
      match r.passage with
      | none => s.register
      | some c => (takePassage n c s).register := by
  have htold : ∀ u : State, (if r.jammed then u.offerAll (.laneEvent n .jammed) else u).register = u.register := by
    intro u
    split <;> rfl
  unfold applyLane
  dsimp only
  rw [htold]
  cases r.passage with
  | none =>
    dsimp only
    split <;> rfl
  | some c => exact takePassage_register c (by split <;> rfl)

theorem applyLane_mode (n : LaneId) (r : LaneStep) (s : State) :
    (applyLane n r s).register.mode = s.register.mode := by
  rw [applyLane_register]
  cases r.passage with
  | none => rfl
  | some c => exact takePassage_mode n c s

theorem deckLoopEvent_mode (d : DeckId) (i : LoopId) (b : Bool) (s : State) :
    (deckLoopEvent d i b s).register.mode = s.register.mode := by
  unfold deckLoopEvent
  dsimp only
  split
  · split
    · exact (deckChange_sameSize d _ _ s).1
    · rfl
  · split
    · exact (deckChange_sameSize d _ _ s).1
    · rfl

theorem captureLoopEvent_mode (d : DeckId) (i : LoopId) (b : Bool) (s : State) :
    (captureLoopEvent d i b s).register.mode = s.register.mode := by
  unfold captureLoopEvent
  split
  · rfl
  · split
    · exact endCapture_failed_mode d _ s
    · rfl

theorem loopDone_mode (s : State) (n : LaneId) (i : LoopId) (b : Bool) :
    (s.loopDone n i b).register.mode = s.register.mode :=
  (applyLane_mode n _ _).trans ((captureLoopEvent_mode n i b _).trans (deckLoopEvent_mode n i b _))

/-- A yard that is not CLOSING does not close at the end of a loop event (R98). -/
theorem loopDone_closingHolds {s : State} (h : s.register.mode ≠ .closing) (n : LaneId) (i : LoopId) (b : Bool) :
    (s.loopDone n i b).closingHolds := fun hm => absurd (loopDone_mode s n i b ▸ hm) h

/-! ### The deck -/

section
variable {s : State} {d : DeckId} {i : LoopId} {b : Bool}

theorem deckLoopEvent_wakes (hs : (s.deck d).state = .sleep) (he : (s.deck d).wakeMask.enables i b = true) :
    deckLoopEvent d i b s = deckChange d .warming (.edge i (!b)) s := by
  simp [deckLoopEvent, hs, he]

theorem deckLoopEvent_sleeps_on (hs : (s.deck d).state = .sleep) (he : (s.deck d).wakeMask.enables i b = false) :
    deckLoopEvent d i b s = s := by
  simp [deckLoopEvent, hs, he]

theorem deckLoopEvent_false_wake (hs : (s.deck d).state = .warming) (hc : (s.deck d).wakeCause = .edge i b) :
    deckLoopEvent d i b s = deckChange d .sleep .none s := by
  simp [deckLoopEvent, hs, hc]

theorem deckLoopEvent_stays (hs : (s.deck d).state ≠ .sleep)
    (hc : (s.deck d).state = .warming → (s.deck d).wakeCause ≠ .edge i b) : deckLoopEvent d i b s = s := by
  have hno : ¬((s.deck d).state = .warming ∧ (s.deck d).wakeCause = .edge i b) := fun h => hc h.1 h.2
  simp [deckLoopEvent, hs, hno]

end

theorem captureLoopEvent_decks (d : DeckId) (i : LoopId) (b : Bool) (s : State) :
    (captureLoopEvent d i b s).decks = s.decks := by
  obtain ⟨_, hdecks, _⟩ := endCapture_frame d (.failed .vehicleLeft) s
  unfold captureLoopEvent
  split
  · rfl
  · split
    · exact hdecks
    · rfl

/-- The deck of a lane at the close of its loop event: judged from what the deck makes of the event. -/
theorem finish_loopDone_deck {s : State} (h : s.register.mode ≠ .closing) (m : YardMode) (n : LaneId) (i : LoopId)
    (b : Bool) :
    ((deckLoopEvent n i b (s.loopSettled n i b)).deck n).judgedFrom ((finish m (s.loopDone n i b)).deck n) := by
  have hkept : (s.loopDone n i b).deck n = (deckLoopEvent n i b (s.loopSettled n i b)).deck n :=
    (applyLane_deck_unit n _ _ n).1.trans
      (congrArg (Vector.get · n) (captureLoopEvent_decks n i b (deckLoopEvent n i b (s.loopSettled n i b))))
  rw [← hkept]
  exact finish_judged m n (loopDone_closingHolds h n i b)

/-- R46, R47: what stands of a deck that is judged at the close of an event. -/
theorem judgedFrom_state {k k' : Deck} (h : k.judgedFrom k') :
    k'.state = k.state ∧ k'.wakeCause = k.wakeCause ∧ k'.warmUp = k.warmUp := by
  obtain ⟨empty, idle, rfl⟩ := h
  exact ⟨rfl, rfl, rfl⟩

/-! ### The capture -/

/-- R46: an ACTIVE deck, and one woken by a request, does not fall asleep at a loop event: register, unit and links
stay. -/
theorem deckLoopEvent_waits {d : DeckId} {i : LoopId} {b : Bool} {s : State}
    (h : (s.deck d).wakeCause = .request ∨ (s.deck d).state = .active) :
    (deckLoopEvent d i b s).register = s.register ∧ (deckLoopEvent d i b s).unit d = s.unit d ∧
      (deckLoopEvent d i b s).links = s.links := by
  by_cases hs : (s.deck d).state = .sleep
  · cases he : (s.deck d).wakeMask.enables i b with
    | true =>
      rw [deckLoopEvent_wakes hs he]
      exact ⟨rfl, rfl, rfl⟩
    | false =>
      rw [deckLoopEvent_sleeps_on hs he]
      exact ⟨rfl, rfl, rfl⟩
  · have hc : (s.deck d).state = .warming → (s.deck d).wakeCause ≠ .edge i b := by
      intro hw
      rcases h with h | h
      · rw [h]
        exact WakeCause.noConfusion
      · rw [h] at hw
        cases hw
    rw [deckLoopEvent_stays hs hc]
    exact ⟨rfl, rfl, rfl⟩

theorem captureLoopEvent_ends {d : DeckId} {s : State} {c : Capture} (hc : (s.unit d).cap = some c)
    (hk : c.owner.kind ≠ .spot) : captureLoopEvent d .deck false s = endCapture d (.failed .vehicleLeft) s := by
  simp [captureLoopEvent, hc, hk]

/-- R105: the WEIGH_IN visit of a vehicle that has left leaves the register, told cancelled. -/
theorem endCapture_visitIn_left {s : State} {d : DeckId} {c : Capture} {v : Visit} (hc : (s.unit d).cap = some c)
    (ho : c.owner = .visitIn v.number) (hv : s.register.find v.number = some v) (hs : v.state = .weighIn)
    (hb : s.bound d = some v.number) :
    (endCapture d (.failed .vehicleLeft) s).register = s.register.leave v.number ∧
      s.tells (endCapture d (.failed .vehicleLeft) s) (.visit v.number .cancelled) := by
  have hleft : endCapture d (.failed .vehicleLeft) s =
      { s with
        units := setAt s.units d ((s.unit d).ended c (.failed .vehicleLeft))
        register := s.register.leave v.number
        links := offerAll (offerCapture d c.owner (.failed .vehicleLeft) s.links) (.visit v.number .cancelled) } := by
    unfold endCapture
    rw [hc]
    dsimp only
    unfold handOutcome
    rw [ho]
    dsimp only
    rw [hv]
    exact if_pos ⟨hs, hb⟩
  rw [hleft]
  refine ⟨rfl, fun l => ?_⟩
  have hoffered := (offersOnly_offerCapture d c.owner (.failed .vehicleLeft) s.links).fixed l
  exact told_of_fixed _ _ _ _ hoffered.2.1 hoffered.2.2.1 (told_offerAll _ _ l (fun w e => (by cases e)))

/-- What is told before an event's further work is told after it. -/
theorem tells_then {s u t : State} {x : Notice} (hx : ∀ w, x ≠ .laneStatus w) (h : s.tells u x) (hu : YardOnly u t) :
    s.tells t x := fun l => hu.links.told _ l x hx (h l)

/-- A loop event once the deck has it, before its capture unit has. -/
def State.deckHeard (s : State) (n : LaneId) (i : LoopId) (b : Bool) : State :=
  deckLoopEvent n i b (s.loopSettled n i b)

theorem yard_deckHeard (s : State) (n : LaneId) (i : LoopId) (b : Bool) : YardOnly s (s.deckHeard n i b) :=
  (yard_setLane s n _ (by cases i <;> rfl) (by cases i <;> rfl)).trans (quiet_deckLoopEvent n i b _).yard

/-- What the lane makes of a loop event touches the yard alone. -/
theorem yard_loopDone (s : State) (n : LaneId) (i : LoopId) (b : Bool) :
    YardOnly ((s.loopSettled n i b).loopHeard n i b) (s.loopDone n i b) := by
  refine yard_applyLane n _ _ ?_
  rw [loopHeard_lane, loopSettled_lane]
  exact (laneLoopEvent_spec _ i b false).1

theorem loopDone_unit (s : State) (n : LaneId) (i : LoopId) (b : Bool) :
    (s.loopDone n i b).unit n = ((s.loopSettled n i b).loopHeard n i b).unit n := (applyLane_deck_unit n _ _ n).2

/-- A DECK cleared event is no passage: the register is as the capture unit leaves it. -/
theorem loopDone_register_deck (s : State) (n : LaneId) (b : Bool) :
    (s.loopDone n .deck b).register = ((s.loopSettled n .deck b).loopHeard n .deck b).register := by
  obtain ⟨_, hpassage⟩ := laneLoopEvent_spec ((s.lane n).loopSettled .deck b) .deck b false
  unfold State.loopDone
  rw [applyLane_register, (hpassage (fun h => by cases h)).1]

/-- A loop event writes no record, and neither does its close. -/
theorem finish_loopDone_records {s : State} {n : LaneId} {i : LoopId} {x : Debounce} (hu : s.up = true)
    (hx : ((s.lane n).loop i).debounce = some x) :
    (finish s.register.mode (s.loopDone n i x.target)).journal.records = s.journal.records := by
  obtain ⟨_, hlow⟩ := isYardEvent_shown rfl (exec_loopDebounceExpiry_acts hu hx)
  rw [hlow]

section
variable {s : State} {n : LaneId} {c : Capture} (hc : (s.unit n).cap = some c)
  (hd : (s.deck n).wakeCause = .request ∨ (s.deck n).state = .active)
include hc hd

theorem deckHeard_spec :
    (s.deckHeard n .deck false).register = s.register ∧ ((s.deckHeard n .deck false).unit n).cap = some c ∧
      (s.deckHeard n .deck false).bound n = s.bound n := by
  obtain ⟨hregister, hunit, _⟩ := deckLoopEvent_waits (s := s.loopSettled n .deck false) (i := .deck) (b := false) hd
  exact ⟨hregister, (congrArg CaptureUnit.cap hunit).trans hc, bound_of_register (s := s) hregister n⟩

variable (hk : c.owner.kind ≠ .spot)
include hk

theorem loopHeard_vehicleLeft :
    (s.loopSettled n .deck false).loopHeard n .deck false =
      endCapture n (.failed .vehicleLeft) (s.deckHeard n .deck false) :=
  captureLoopEvent_ends (deckHeard_spec hc hd).2.1 hk

/-- R59, R66: the capture of a vehicle that has left has ended, and the links are told. -/
theorem finish_vehicleLeft (m : YardMode) (h : s.register.mode ≠ .closing) :
    ((finish m (s.loopDone n .deck false)).unit n).cap = none ∧
      s.tells (finish m (s.loopDone n .deck false)) (.capture n c.owner (.failed .vehicleLeft)) := by
  obtain ⟨_, hcap, _⟩ := deckHeard_spec hc hd
  obtain ⟨hidle, _⟩ := endCapture_frame n (.failed .vehicleLeft) (s.deckHeard n .deck false)
  obtain ⟨htold, _⟩ := endCapture_told n (.failed .vehicleLeft) _ c hcap
  obtain ⟨_, _, hunits, _⟩ := finish_frame m _ (loopDone_closingHolds h n .deck false)
  have hheard := loopHeard_vehicleLeft hc hd hk
  have hunit := loopDone_unit s n .deck false
  have hyard := yard_loopDone s n .deck false
  rw [hheard] at hunit hyard
  refine ⟨?_, tells_finish m (fun w e => by cases e) ?_⟩
  · unfold State.unit at hunit hidle ⊢
    rw [hunits, hunit]
    exact hidle
  · exact tells_of_yard (yard_deckHeard s n .deck false) (tells_then (fun w e => by cases e) (htold hk) hyard)

/-- The register at the close is as the end of the capture leaves it. -/
theorem finish_vehicleLeft_register (m : YardMode) (h : s.register.mode ≠ .closing) :
    (finish m (s.loopDone n .deck false)).register =
      (endCapture n (.failed .vehicleLeft) (s.deckHeard n .deck false)).register := by
  obtain ⟨_, _, _, hregister, _⟩ := finish_frame m _ (loopDone_closingHolds h n .deck false)
  rw [hregister, loopDone_register_deck, loopHeard_vehicleLeft hc hd hk]

variable {v : Visit} (hfind : s.register.find v.number = some v) (hb : s.bound n = some v.number)
include hfind hb

/-- R105: the WEIGH_IN visit is gone, and told cancelled. -/
theorem finish_vehicleLeft_visitIn (m : YardMode) (h : s.register.mode ≠ .closing)
    (ho : c.owner = .visitIn v.number) (hs : v.state = .weighIn) :
    (finish m (s.loopDone n .deck false)).register = s.register.leave v.number ∧
      s.tells (finish m (s.loopDone n .deck false)) (.visit v.number .cancelled) := by
  obtain ⟨hregister, hcap, hbound⟩ := deckHeard_spec hc hd
  obtain ⟨hleft, htold⟩ := endCapture_visitIn_left hcap ho (hregister ▸ hfind) hs (hbound.trans hb)
  have hyard := yard_loopDone s n .deck false
  rw [loopHeard_vehicleLeft hc hd hk] at hyard
  refine ⟨(finish_vehicleLeft_register hc hd hk m h).trans (hleft.trans (by rw [hregister])), ?_⟩
  refine tells_finish m (fun w e => by cases e) (tells_of_yard (yard_deckHeard s n .deck false) ?_)
  exact tells_then (fun w e => by cases e) htold hyard

/-- R115: the WEIGH_OUT visit is back ON_SITE, unbound. -/
theorem finish_vehicleLeft_visitOut (m : YardMode) (h : s.register.mode ≠ .closing)
    (ho : c.owner = .visitOut v.number) (hs : v.state = .weighOut) :
    (finish m (s.loopDone n .deck false)).register =
      (s.register.update v.number (fun x => x.failedOut .vehicleLeft)).unbind v.number := by
  obtain ⟨hregister, hcap, hbound⟩ := deckHeard_spec hc hd
  have hfailed := endCapture_visitOut_failed .vehicleLeft hcap ho (hregister ▸ hfind) hs (hbound.trans hb)
  exact (finish_vehicleLeft_register hc hd hk m h).trans (hfailed.trans (by rw [hregister]))

end

theorem unbind_bound {r : Register} (v : Nat) (m : LaneId) : (r.unbind v).bindings.get m ≠ some v := by
  rw [unbind_get]
  split
  · exact nofun
  · assumption

/-! ### The barrier -/

/-- R86: a DECK cleared event without a passage begun withdraws a PENDING VISIT cause. -/
theorem deckCleared_withdraws {k : Lane} (hm : k.mark = false) (hp : k.pendingCause Cause.isVisit = true) :
    k.deckCleared.lane.cause = k.cause.map (fun c => { c with status := .withdrawn }) ∧
      k.deckCleared.lane.barrier = if k.barrier = .up ∧ k.settled = true then k.lowered else k.barrier := by
  obtain ⟨_, _, _, _, _, _, _, _, hcause⟩ := withdraw_spec k Cause.isVisit
  have hwithdrawn : k.deckCleared = k.withdraw Cause.isVisit := if_neg (ne_true_of_eq_false hm)
  rw [hwithdrawn]
  exact ⟨hcause hp, withdraw_barrier hp⟩

theorem deckCleared_stays {k : Lane} (h : k.mark = true ∨ k.pendingCause Cause.isVisit = false) :
    k.deckCleared = { lane := k } := by
  obtain ⟨_, _, _, _, _, _, _, hsame, _⟩ := withdraw_spec k Cause.isVisit
  unfold Lane.deckCleared
  split
  · rfl
  · rename_i hm
    exact hsame (h.resolve_left hm)

/-- Settles O20: the loop, the deck and the capture, the visit of the capture, and the lane at the close. -/
theorem loopEventReachesDeckAndCapture : Obligations.LoopEventReachesDeckAndCapture := by
  intro s n i x hu hx hmode
  obtain ⟨hoccupied, hdebounce⟩ := finish_loopDone_loop s.register.mode s n i x.target
  obtain ⟨hstate, hcause, hwarm⟩ := judgedFrom_state (finish_loopDone_deck hmode s.register.mode n i x.target)
  obtain ⟨w, hlane⟩ := finish_loopDone_lane s.register.mode s n i x.target
  refine ⟨_, exec_loopDebounceExpiry_acts hu hx, hoccupied, hdebounce, ?_⟩
  rw [hstate, hcause, hwarm]
  refine ⟨fun hs he => ?_, fun hs he => ?_, fun hs hc => ?_, fun hs hc => ?_, fun hs => ?_, fun c hc hk hi ht hd => ?_,
    fun hi ht hm hp => ?_, fun hi h => ?_⟩
  · rw [deckLoopEvent_wakes (s := s.loopSettled n i x.target) hs he, (deckChange_frame _ _ _ _).1]
    exact ⟨rfl, rfl, rfl⟩
  · rw [deckLoopEvent_sleeps_on (s := s.loopSettled n i x.target) hs he]
    exact hs
  · rw [deckLoopEvent_false_wake (s := s.loopSettled n i x.target) hs hc, (deckChange_frame _ _ _ _).1]
    rfl
  · rw [deckLoopEvent_stays (s := s.loopSettled n i x.target) (fun h => by cases hs.symm.trans h) (fun _ => hc)]
    exact ⟨hs, rfl⟩
  · rw [deckLoopEvent_stays (s := s.loopSettled n i x.target) (fun h => by cases hs.symm.trans h)
      (fun h => by cases hs.symm.trans h)]
    exact hs
  · have hrecords := finish_loopDone_records hu hx
    subst hi
    rw [ht] at hrecords ⊢
    obtain ⟨hidle, htold⟩ := finish_vehicleLeft hc hd hk s.register.mode hmode
    refine ⟨hidle, htold, hrecords, fun v ho hv hs hb => ?_, fun v ho hv hs hb => ?_⟩
    · obtain ⟨hleft, hcancelled⟩ := finish_vehicleLeft_visitIn hc hd hk hv hb s.register.mode hmode ho hs
      unfold State.bound
      rw [hleft]
      exact ⟨rfl, unbind_bound (r := s.register) v.number, hcancelled⟩
    · unfold State.bound
      rw [finish_vehicleLeft_visitOut hc hd hk hv hb s.register.mode hmode ho hs]
      exact ⟨find_update_self _ (fun _ h => h) hv, unbind_bound v.number⟩
  · subst hi
    rw [hlane, ht]
    exact deckCleared_withdraws (k := (s.lane n).loopSettled .deck false) hm hp
  · subst hi
    rw [hlane]
    cases ht : x.target with
    | true => exact ⟨rfl, rfl⟩
    | false =>
      have hstays : ((s.lane n).loopSettled .deck false).deckCleared = _ :=
        deckCleared_stays (h.resolve_left (by rw [ht]; decide))
      show ((s.lane n).loopSettled .deck false).deckCleared.lane.cause = _ ∧
        ((s.lane n).loopSettled .deck false).deckCleared.lane.barrier = _
      rw [hstays]
      exact ⟨rfl, rfl⟩

end Sys2Proof.Machine
end

section
/-! PROOF. A CLEAR cleared event (R82, R83, R86, R107, R116): the lane it unsettles, and the passage credited to its
visit. -/

namespace Sys2Proof.Machine

/-! ### The lane -/

/-- The cause with a PENDING status consumed (R83). -/
def Lane.consumedCause (k : Lane) : Option Cause :=
  k.cause.map (fun c => if c.status = .pending then { c with status := .consumed } else c)

/-- The cause with a PENDING SAFETY withdrawn (R86). -/
def Lane.safetyWithdrawn (k : Lane) : Option Cause :=
  k.cause.map (fun c => if c.status = .pending ∧ c.kind = .safety then { c with status := .withdrawn } else c)

section
variable {k : Lane}

/-- A cause that does not change under a map that the PENDING causes of a kind alone feel. -/
theorem map_cause_of_not_pending {p : Cause → Bool} {f : Cause → Cause} (h : k.pendingCause p = false)
    (hf : ∀ c : Cause, (c.isPending && p c) = false → f c = c) : k.cause.map f = k.cause := by
  unfold Lane.pendingCause at h
  cases hc : k.cause with
  | none => rfl
  | some c =>
    rw [hc] at h
    exact congrArg some (hf c h)

theorem map_cause_of_pending {p : Cause → Bool} {f g : Cause → Cause} (h : k.pendingCause p = true)
    (hf : ∀ c : Cause, (c.isPending && p c) = true → f c = g c) : k.cause.map f = k.cause.map g := by
  unfold Lane.pendingCause at h
  cases hc : k.cause with
  | none => rfl
  | some c =>
    rw [hc] at h
    exact congrArg some (hf c h)

theorem clearCleared_cause_passage (h : k.isPassage = true) : k.clearCleared.lane.cause = k.consumedCause := by
  have hjudged : ∀ u : Lane, u.judgeLower.lane.cause = u.cause := fun u => (judgeLower_spec u).2.1.1
  unfold Lane.clearCleared
  rw [if_pos h]
  refine (hjudged _).trans ?_
  cases hp : k.pendingCause (fun _ => true) with
  | true => exact map_cause_of_pending hp (fun c hc => (if_pos (by simpa [Cause.isPending] using hc)).symm)
  | false => exact (map_cause_of_not_pending hp (fun c hc => if_neg (by simpa [Cause.isPending] using hc))).symm

theorem clearCleared_cause_other (h : k.isPassage = false) : k.clearCleared.lane.cause = k.safetyWithdrawn := by
  obtain ⟨_, _, _, _, _, _, _, hsame, hcause⟩ :=
    withdraw_spec { k with settle := some (k.setup.settle * 100), settled := false, mark := false }
      (fun c => c.kind == .safety)
  unfold Lane.clearCleared
  rw [if_neg (ne_true_of_eq_false h)]
  cases hp : k.pendingCause (fun c => c.kind == .safety) with
  | true =>
    rw [hcause hp]
    exact map_cause_of_pending hp (fun c hc => (if_pos (by simpa [Cause.isPending] using hc)).symm)
  | false =>
    rw [hsame hp]
    exact (map_cause_of_not_pending hp (fun c hc => if_neg (by simpa [Cause.isPending] using hc))).symm

theorem credited_of_cause {c : Cause} (hc : k.cause = some c) (hp : c.status = .pending) (hv : c.isVisit = true) :
    k.credited = some c.kind := by
  simp [Lane.credited, hc, Cause.isPending, hp, hv]

theorem isTailgate_of (h : 1 ≤ k.count ∨ ∃ c, k.cause = some c ∧ c.status = .withdrawn) : k.isTailgate = true := by
  unfold Lane.isTailgate
  rcases h with h | ⟨c, hc, hs⟩
  · simp [h]
  · simp [hc, hs]

end

/-! ### The deck and the capture unit -/

theorem captureLoopEvent_clear (d : DeckId) (b : Bool) (s : State) : captureLoopEvent d .clear b s = s := by
  unfold captureLoopEvent
  split
  · rfl
  · exact if_neg (fun h => by cases h.1)

theorem loopHeard_clear (s : State) (n : LaneId) (b : Bool) :
    (s.loopSettled n .clear b).loopHeard n .clear b = s.deckHeard n .clear b := captureLoopEvent_clear n b _

/-- R105, R115: an aborted capture takes no visit out of the register. -/
theorem endCapture_aborted_numbers (d : DeckId) (s : State) :
    (endCapture d (.failed .aborted) s).register.visits.map (·.number) = s.register.visits.map (·.number) := by
  unfold endCapture
  split
  · rfl
  · rename_i c _
    unfold handOutcome
    cases c.owner with
    | visitIn v | visitOut v =>
      dsimp only
      split
      · rfl
      · split
        · exact update_numbers s.register _ _ (fun _ h => h)
        · rfl
    | spot l => rfl

theorem deckLoopEvent_numbers (d : DeckId) (i : LoopId) (b : Bool) (s : State) :
    (deckLoopEvent d i b s).register.visits.map (·.number) = s.register.visits.map (·.number) := by
  unfold deckLoopEvent
  dsimp only
  split
  · split <;> rfl
  · split
    · exact endCapture_aborted_numbers d (enterDeck d .sleep .none s)
    · rfl

/-- R105, R115: a lane bound to a visit that is not being weighed leaves its deck's outcomes without effect. -/
theorem handOutcome_of_bound {n : LaneId} {s : State} {v : Visit} (w : CapOwner) (o : CapOutcome)
    (hb : s.bound n = some v.number) (hv : s.register.find v.number = some v) (hin : v.state ≠ .weighIn)
    (hout : v.state ≠ .weighOut) : handOutcome n w o s = s := by
  have hsame : ∀ {y x}, s.register.find y = some x → s.bound n = some y → x = v := by
    intro y x hx hbound
    cases hb.symm.trans hbound
    exact Option.some.inj (hx.symm.trans hv)
  unfold handOutcome
  cases w with
  | visitIn y =>
    dsimp only
    split
    · rfl
    · exact if_neg (fun ⟨hs, hbound⟩ => hin (hsame ‹_› hbound ▸ hs))
  | visitOut y =>
    dsimp only
    split
    · rfl
    · exact if_neg (fun ⟨hs, hbound⟩ => hout (hsame ‹_› hbound ▸ hs))
  | spot l => rfl

theorem endCapture_register_of_bound {d : DeckId} {s : State} {v : Visit} (o : CapOutcome)
    (hb : s.bound d = some v.number) (hv : s.register.find v.number = some v) (hin : v.state ≠ .weighIn)
    (hout : v.state ≠ .weighOut) : (endCapture d o s).register = s.register := by
  unfold endCapture
  split
  · rfl
  · rename_i c _
    have hkept := handOutcome_of_bound
      (s := { s with
        units := setAt s.units d ((s.unit d).ended c o)
        links := offerCapture d c.owner o s.links })
      c.owner o hb hv hin hout
    exact (congrArg State.register hkept :)

theorem deckLoopEvent_register_of_bound {d : DeckId} {s : State} {v : Visit} (i : LoopId) (b : Bool)
    (hb : s.bound d = some v.number) (hv : s.register.find v.number = some v) (hin : v.state ≠ .weighIn)
    (hout : v.state ≠ .weighOut) : (deckLoopEvent d i b s).register = s.register := by
  unfold deckLoopEvent
  dsimp only
  split
  · split <;> rfl
  · split
    · exact endCapture_register_of_bound (s := enterDeck d .sleep .none s) _ hb hv hin hout
    · rfl

/-! ### The passage -/

/-- R107: the visit of an ADMITTED cause enters. -/
theorem takePassage_admitted {n : LaneId} {s : State} {v : Visit} (hv : s.register.find v.number = some v)
    (hs : v.state = .entering) (hb : s.bound n = some v.number) :
    takePassage n (.admitted v.number) s =
      { s with
        register := (s.register.update v.number (fun x => { x with state := .onSite })).unbind v.number
        links := offerAll s.links (.visit v.number .entered) } := by
  simp [takePassage, hv, hs, hb]

/-- R116: the visit of a RELEASED cause departs. -/
theorem takePassage_released {n : LaneId} {s : State} {v : Visit} (hv : s.register.find v.number = some v)
    (hs : v.state = .released) (hb : s.bound n = some v.number) :
    takePassage n (.released v.number) s =
      { s with register := s.register.leave v.number, links := offerAll s.links (.visit v.number .departed) } := by
  simp [takePassage, hv, hs, hb]

/-- What a passage tells from the register as it stands is told by the lane step. -/
theorem applyLane_passage_told {n : LaneId} {r : LaneStep} {c : CauseKind} {s : State} {x : Notice}
    (hp : r.passage = some c) (hx : ∀ w, x ≠ .laneStatus w)
    (h : ∀ u : State, u.register = s.register → u.tells (takePassage n c u) x) : s.tells (applyLane n r s) x := by
  have hjammed : ∀ u : State,
      OffersOnly u.links (if r.jammed then u.offerAll (.laneEvent n .jammed) else u).links := by
    intro u
    split
    · exact offersOnly_offerAll _ _
    · exact OffersOnly.refl _
  have htailgate : OffersOnly s.links
      (if r.tailgate then (s.setLane n r.lane).offerAll (.laneEvent n .tailgate) else s.setLane n r.lane).links := by
    split
    · exact offersOnly_offerAll _ _
    · exact OffersOnly.refl _
  unfold applyLane
  dsimp only
  rw [hp]
  intro l
  refine (hjammed _).told _ l x hx (told_of_fixed _ _ _ _ (htailgate.fixed l).2.1 (htailgate.fixed l).2.2.1 ?_)
  exact h _ (by split <;> rfl) l

/-! ### The event -/

/-- The lane of a CLEAR cleared event at its close. -/
theorem finish_clearCleared_lane (m : YardMode) (s : State) (n : LaneId) :
    ((finish m (s.loopDone n .clear false)).lane n).mark = false ∧
      ((finish m (s.loopDone n .clear false)).lane n).settled = false ∧
      ((finish m (s.loopDone n .clear false)).lane n).settle = some ((s.lane n).setup.settle * 100) ∧
      ((finish m (s.loopDone n .clear false)).lane n).barrier = (s.lane n).barrier ∧
      ((finish m (s.loopDone n .clear false)).lane n).count =
        (if (s.lane n).isPassage then min ((s.lane n).count + 1) 255 else (s.lane n).count) ∧
      ((finish m (s.loopDone n .clear false)).lane n).cause =
        (if (s.lane n).isPassage then (s.lane n).consumedCause else (s.lane n).safetyWithdrawn) := by
  obtain ⟨_, hmark, hsettled, hsettle, hcount, _, _, _, hbarrier⟩ :=
    clearCleared_spec ((s.lane n).loopSettled .clear false)
  obtain ⟨w, hlane⟩ := finish_loopDone_lane m s n .clear false
  rw [hlane]
  refine ⟨hmark, hsettled, hsettle, hbarrier, hcount, ?_⟩
  split
  · exact clearCleared_cause_passage (k := (s.lane n).loopSettled .clear false) ‹_›
  · exact clearCleared_cause_other (k := (s.lane n).loopSettled .clear false) (Bool.eq_false_iff.mpr ‹_›)

theorem isPassage_iff (k : Lane) :
    k.isPassage = true ↔ k.mark = true ∧ (k.barrier = .raising ∨ k.barrier = .up) := by
  simp [Lane.isPassage]

/-- R82: what is no passage keeps the visits. -/
theorem finish_noPassage_numbers {s : State} {n : LaneId} (h : (s.lane n).isPassage = false) (m : YardMode) :
    (finish m (s.loopDone n .clear false)).register.visits.map (·.number) = s.register.visits.map (·.number) := by
  obtain ⟨_, _, _, _, _, _, hpassage, _⟩ := clearCleared_spec ((s.lane n).loopSettled .clear false)
  have hnone : (((s.lane n).loopSettled .clear false).loopEvent .clear false false).passage = none :=
    hpassage.trans (if_neg (ne_true_of_eq_false h))
  obtain ⟨y, hregister⟩ := finish_register m (s.loopDone n .clear false)
  rw [hregister]
  show (s.loopDone n .clear false).register.visits.map (·.number) = _
  unfold State.loopDone
  rw [applyLane_register, hnone, loopHeard_clear]
  exact deckLoopEvent_numbers n .clear false (s.loopSettled n .clear false)

section
variable {s : State} {n : LaneId} (h : (s.lane n).isPassage = true)
include h

/-- R82: a passage under a count, or under a WITHDRAWN cause, is told as TAILGATE. -/
theorem finish_tailgate_told (m : YardMode)
    (ht : 1 ≤ (s.lane n).count ∨ ∃ c, (s.lane n).cause = some c ∧ c.status = .withdrawn) :
    s.tells (finish m (s.loopDone n .clear false)) (.laneEvent n .tailgate) := by
  obtain ⟨_, _, _, _, _, htailgate, _⟩ := clearCleared_spec ((s.lane n).loopSettled .clear false)
  have htail : (((s.lane n).loopSettled .clear false).loopEvent .clear false false).tailgate = true := by
    refine htailgate.trans ?_
    rw [show ((s.lane n).loopSettled .clear false).isPassage = true from h,
      isTailgate_of (k := (s.lane n).loopSettled .clear false) ht]
    rfl
  have htold := (applyLane_told n (((s.lane n).loopSettled .clear false).loopEvent .clear false false)
    ((s.loopSettled n .clear false).loopHeard n .clear false)).2 htail
  rw [loopHeard_clear] at htold
  exact tells_finish m laneEvent_ne_word (tells_of_yard (yard_deckHeard s n .clear false)
    (by rw [State.loopDone, loopHeard_clear]; exact htold))

variable {v : Visit} (hv : s.register.find v.number = some v) (hb : s.bound n = some v.number)
include hv hb

/-- R107, R116: a passage under a PENDING VISIT cause is credited to the bound visit, as the register before the event
has it. -/
theorem finish_passage {c : Cause} (hin : v.state ≠ .weighIn) (hout : v.state ≠ .weighOut)
    (hc : (s.lane n).cause = some c) (hp : c.status = .pending) (hvisit : c.isVisit = true) (m : YardMode) :
    (∃ y, (finish m (s.loopDone n .clear false)).register = { (takePassage n c.kind s).register with mode := y }) ∧
      ∀ x, (∀ w, x ≠ .laneStatus w) →
        (∀ u : State, u.register = s.register → u.tells (takePassage n c.kind u) x) →
        s.tells (finish m (s.loopDone n .clear false)) x := by
  obtain ⟨_, _, _, _, _, _, hpassage, _⟩ := clearCleared_spec ((s.lane n).loopSettled .clear false)
  have hcredited : (((s.lane n).loopSettled .clear false).loopEvent .clear false false).passage = some c.kind :=
    hpassage.trans ((if_pos h).trans (credited_of_cause (k := (s.lane n).loopSettled .clear false) hc hp hvisit))
  have hheard : (s.deckHeard n .clear false).register = s.register :=
    deckLoopEvent_register_of_bound (s := s.loopSettled n .clear false) .clear false hb hv hin hout
  refine ⟨?_, fun x hx htells => ?_⟩
  · obtain ⟨y, hregister⟩ := finish_register m (s.loopDone n .clear false)
    refine ⟨y, hregister.trans ?_⟩
    unfold State.loopDone
    rw [applyLane_register, hcredited, loopHeard_clear]
    exact congrArg (fun r : Register => { r with mode := y }) (takePassage_register c.kind hheard)
  · refine tells_finish m hx (tells_of_yard (yard_deckHeard s n .clear false) ?_)
    unfold State.loopDone
    rw [loopHeard_clear]
    exact applyLane_passage_told hcredited hx (fun u hu => htells u (hu.trans hheard))

end

/-- Settles O22: what is no passage, and a passage with the visit it is credited to. -/
theorem passageCreditsItsVisit : Obligations.PassageCreditsItsVisit := by
  refine ⟨fun s n x hu hx ht hno => ?_, fun s n x hu hx ht hm hb => ?_⟩
  · have hpassage : (s.lane n).isPassage = false := Bool.eq_false_iff.mpr (fun h => hno ((isPassage_iff _).mp h))
    have hexec := exec_loopDebounceExpiry_acts (i := .clear) hu hx
    have hrecords := finish_loopDone_records (i := .clear) hu hx
    obtain ⟨hoccupied, _⟩ := finish_loopDone_loop s.register.mode s n .clear false
    obtain ⟨hmark, hsettled, hsettle, hbarrier, hcount, hcause⟩ := finish_clearCleared_lane s.register.mode s n
    rw [ht] at hexec hrecords
    rw [hpassage] at hcount hcause
    exact ⟨_, hexec, hoccupied, hmark, hsettled, hsettle, hbarrier, hcount, hcause,
      finish_noPassage_numbers hpassage _, hrecords⟩
  · have hpassage : (s.lane n).isPassage = true := (isPassage_iff _).mpr ⟨hm, hb⟩
    have hexec := exec_loopDebounceExpiry_acts (i := .clear) hu hx
    have hrecords := finish_loopDone_records (i := .clear) hu hx
    obtain ⟨hoccupied, _⟩ := finish_loopDone_loop s.register.mode s n .clear false
    obtain ⟨hmark, hsettled, hsettle, hbarrier, hcount, hcause⟩ := finish_clearCleared_lane s.register.mode s n
    rw [ht] at hexec hrecords
    rw [hpassage] at hcount hcause
    refine ⟨_, hexec, hoccupied, hmark, hsettled, hsettle, hbarrier, hcount, hcause,
      finish_tailgate_told hpassage _, fun v hc hv hs hbound => ?_, fun v hc hv hs hbound => ?_⟩
    · obtain ⟨⟨y, hregister⟩, htold⟩ := finish_passage hpassage hv hbound (by rw [hs]; decide) (by rw [hs]; decide) hc
        rfl rfl s.register.mode
      rw [takePassage_admitted hv hs hbound] at hregister
      unfold State.bound
      rw [hregister]
      refine ⟨find_update_self (r := s.register) _ (fun _ h => h) hv,
        (unbind_get s.register v.number n).trans (if_pos hbound), htold _ (fun w e => by cases e) (fun u hu => ?_)⟩
      rw [takePassage_admitted (hu ▸ hv) hs ((bound_of_register hu n).trans hbound)]
      exact fun l => told_offerAll _ _ l (fun w e => by cases e)
    · obtain ⟨⟨y, hregister⟩, htold⟩ := finish_passage hpassage hv hbound (by rw [hs]; decide) (by rw [hs]; decide) hc
        rfl rfl s.register.mode
      rw [takePassage_released hv hs hbound] at hregister
      unfold State.bound
      rw [hregister]
      refine ⟨(find_leave s.register v.number v.number).trans (if_pos rfl),
        (leave_get s.register v.number n).trans (if_pos hbound), htold _ (fun w e => by cases e) (fun u hu => ?_),
        hrecords⟩
      rw [takePassage_released (hu ▸ hv) hs ((bound_of_register hu n).trans hbound)]
      exact fun l => told_offerAll _ _ l (fun w e => by cases e)

end Sys2Proof.Machine
end

section
/-! PROOF. The moves a register makes that keep it sound (R94, R95, R98): visits changed in place, a visit that leaves, one
appended under a free number, a lane bound, a reset. -/

namespace Sys2Proof.Machine

/-! ### A sound register -/

/-- R94, R95, R98: the visits are distinct, and each lane is bound to a visit of its own. -/
structure Register.Sound (r : Register) : Prop where
  distinct : r.distinct
  bound : r.boundOnce

/-- A change that keeps a register sound. -/
def Register.staysSound (r r' : Register) : Prop := r.Sound → r'.Sound

theorem Register.staysSound.refl (r : Register) : r.staysSound r := id

theorem Register.staysSound.trans {a b c : Register} (h : a.staysSound b) (h' : b.staysSound c) : a.staysSound c :=
  fun ha => h' (h ha)

theorem Register.Sound.find_of_mem {r : Register} (h : r.Sound) {x : Visit} (hx : x ∈ r.visits) :
    r.find x.number = some x := Machine.find_of_mem h.distinct hx

/-- R98: a lane is bound to a visit the register finds, which is not ON_SITE. -/
theorem Register.Sound.find_of_bound {r : Register} (h : r.Sound) {n : LaneId} {v : Nat}
    (hb : r.bindings.get n = some v) : ∃ x, r.find v = some x ∧ x.state ≠ .onSite := by
  obtain ⟨x, hx, rfl, hs⟩ := h.bound.1 n v hb
  exact ⟨x, h.find_of_mem hx, hs⟩

/-- R98: no lane is bound to a visit that is ON_SITE. -/
theorem Register.Sound.unbound_of_onSite {r : Register} (h : r.Sound) {v : Nat} {x : Visit} (hv : r.find v = some x)
    (hs : x.state = .onSite) (n : LaneId) : r.bindings.get n ≠ some v := by
  intro hb
  obtain ⟨y, hy, hn⟩ := h.find_of_bound hb
  cases hv.symm.trans hy
  exact hn hs

/-! ### Visits changed in place -/

/-- Visits changed in place keep the register sound where numbers and registrations stay and no visit that is still bound
becomes ON_SITE. -/
theorem staysSound_map {r r' : Register} (f : Visit → Visit) (hv : r'.visits = r.visits.map f)
    (hc : r'.counter = r.counter)
    (hf : r.Sound → ∀ x ∈ r.visits, (f x).number = x.number ∧ (f x).plate = x.plate)
    (hb : r.Sound → ∀ n v, r'.bindings.get n = some v → r.bindings.get n = some v ∧
      ∀ x, r.find v = some x → x.state ≠ .onSite → (f x).state ≠ .onSite) : r.staysSound r' := by
  intro h
  obtain ⟨⟨hlen, hnumbers, hplates, hrange, hcounter⟩, honce⟩ := h
  have hs : r.Sound := ⟨⟨hlen, hnumbers, hplates, hrange, hcounter⟩, honce⟩
  have hnum : r'.visits.map (·.number) = r.visits.map (·.number) := by
    rw [hv, List.map_map]
    exact List.map_congr_left (fun x hx => (hf hs x hx).1)
  have hplate : r'.visits.map (·.plate) = r.visits.map (·.plate) := by
    rw [hv, List.map_map]
    exact List.map_congr_left (fun x hx => (hf hs x hx).2)
  refine ⟨⟨by rw [hv, List.length_map]; exact hlen, hnum ▸ hnumbers, hplate ▸ hplates, ?_, hc ▸ hcounter⟩, ?_, ?_⟩
  · intro y hy
    rw [hv] at hy
    obtain ⟨x, hx, rfl⟩ := List.mem_map.mp hy
    rw [(hf hs x hx).1]
    exact hrange x hx
  · intro n v hn
    obtain ⟨hn0, hstate⟩ := hb hs n v hn
    obtain ⟨x, hfind, hsite⟩ := hs.find_of_bound hn0
    obtain ⟨hx, hxn⟩ := find_some hfind
    exact ⟨f x, hv ▸ List.mem_map_of_mem hx, (hf hs x hx).1.trans hxn, hstate x hfind hsite⟩
  · exact fun n m v hn hm => honce.2 n m v (hb hs n v hn).1 (hb hs m v hm).1

/-- A change of the mode alone. -/
theorem staysSound_mode (r : Register) (m : YardMode) : r.staysSound { r with mode := m } :=
  fun h => ⟨h.distinct, h.bound⟩

section
variable {r : Register} {v : Nat} {f : Visit → Visit}

/-- The change of the visit of one number keeps its number and its registration. -/
theorem update_keeps_of_find (hf : ∀ x, r.find v = some x → (f x).number = v ∧ (f x).plate = x.plate)
    (h : r.Sound) {x : Visit} (hx : x ∈ r.visits) :
    (if x.number == v then f x else x).number = x.number ∧ (if x.number == v then f x else x).plate = x.plate := by
  split
  · rename_i hn
    have hv : x.number = v := beq_iff_eq.mp hn
    obtain ⟨hnum, hplate⟩ := hf x (hv ▸ h.find_of_mem hx)
    exact ⟨hnum.trans hv.symm, hplate⟩
  · exact ⟨rfl, rfl⟩

/-- One visit changed, its binding kept. -/
theorem staysSound_update (hf : ∀ x, r.find v = some x → (f x).number = v ∧ (f x).plate = x.plate)
    (hs : ∀ x, r.find v = some x → x.state ≠ .onSite → (f x).state ≠ .onSite) : r.staysSound (r.update v f) := by
  refine staysSound_map _ rfl rfl (fun h x hx => update_keeps_of_find hf h hx) (fun _ n w hn => ⟨hn, fun x hx hsite => ?_⟩)
  split
  · rename_i hnum
    have hv : x.number = v := beq_iff_eq.mp hnum
    rw [(find_some hx).2.symm.trans hv] at hx
    exact hs x hx hsite
  · exact hsite

/-- One visit changed, its binding ended. -/
theorem staysSound_update_unbind (hf : ∀ x, r.find v = some x → (f x).number = v ∧ (f x).plate = x.plate) :
    r.staysSound ((r.update v f).unbind v) := by
  refine staysSound_map _ rfl rfl (fun h x hx => update_keeps_of_find hf h hx) (fun _ n w hn => ?_)
  rw [unbind_get] at hn
  split at hn
  · cases hn
  · rename_i hother
    have hw : w ≠ v := fun e => hother (hn.trans (congrArg some e))
    refine ⟨hn, fun x hx hsite => ?_⟩
    rw [if_neg (by rw [(find_some hx).2]; simpa using hw)]
    exact hsite

end

/-! ### A visit leaves -/

/-- R94, R98: a visit that leaves takes its binding with it. -/
theorem staysSound_leave (r : Register) (v : Nat) : r.staysSound (r.leave v) := by
  intro ⟨⟨hlen, hnumbers, hplates, hrange, hcounter⟩, hbound, honce⟩
  have hsub : (r.leave v).visits.Sublist r.visits := List.filter_sublist
  have hkept : ∀ n w, (r.leave v).bindings.get n = some w → r.bindings.get n = some w ∧ w ≠ v := by
    intro n w hn
    rw [leave_get] at hn
    split at hn
    · cases hn
    · rename_i hother
      exact ⟨hn, fun e => hother (hn.trans (congrArg some e))⟩
  refine ⟨⟨hsub.length_le.trans hlen, hnumbers.sublist (hsub.map _), hplates.sublist (hsub.map _),
    fun x hx => hrange x (hsub.subset hx), hcounter⟩, fun n w hn => ?_, fun n m w hn hm => ?_⟩
  · obtain ⟨hn0, hw⟩ := hkept n w hn
    obtain ⟨x, hx, hxw, hs⟩ := hbound n w hn0
    exact ⟨x, List.mem_filter.mpr ⟨hx, by rw [hxw]; simpa using hw⟩, hxw, hs⟩
  · exact honce n m w (hkept n w hn).1 (hkept m w hm).1

/-! ### A lane bound -/

/-- R98: a lane bound to a visit that no lane serves and that is not ON_SITE. -/
theorem Register.Sound.bind {r : Register} (h : r.Sound) (n : LaneId) {v : Nat} {x : Visit} (hv : r.find v = some x)
    (hs : x.state ≠ .onSite) (hfree : ∀ m, r.bindings.get m ≠ some v) : (r.bind n v).Sound := by
  refine ⟨h.distinct, fun m w hm => ?_, fun m k w hm hk => ?_⟩
  · rw [bind_get] at hm
    split at hm
    · cases hm
      exact ⟨x, (find_some hv).1, (find_some hv).2, hs⟩
    · exact h.bound.1 m w hm
  · rw [bind_get] at hm hk
    split at hm <;> split at hk
    · rename_i hmn hkn
      exact hmn.trans hkn.symm
    · cases hm
      exact absurd hk (hfree k)
    · cases hk
      exact absurd hm (hfree m)
    · exact h.bound.2 m k w hm hk

/-! ### A visit admitted -/

/-- R95: the value some places after one of the visit counter. -/
theorem nextVisit_iterate {n : Nat} (h : 1 ≤ n ∧ n ≤ 65535) (i : Nat) :
    nextVisit^[i] n = (n - 1 + i) % 65535 + 1 := by
  induction i with
  | zero => simp only [Function.iterate_zero, id]; omega
  | succ i ih =>
    rw [Function.iterate_succ_apply', ih]
    unfold nextVisit
    split <;> omega

theorem nextVisit_range {n : Nat} (h : 1 ≤ n ∧ n ≤ 65535) : 1 ≤ nextVisit n ∧ nextVisit n ≤ 65535 := by
  unfold nextVisit
  split <;> omega

/-- R95: the search ends at a value no visit bears, or every value it has met is borne. -/
theorem freeNumber_cases (r : Register) (k n : Nat) :
    r.find (r.freeNumber k n) = none ∨ ∀ i < k, (r.find (nextVisit^[i] n)).isSome = true := by
  induction k generalizing n with
  | zero => exact .inr (fun i hi => absurd hi (Nat.not_lt_zero i))
  | succ k ih =>
    unfold Register.freeNumber
    split
    · rename_i htaken
      obtain hfree | hall := ih (nextVisit n)
      · exact .inl hfree
      · refine .inr (fun i hi => ?_)
        cases i with
        | zero => exact htaken
        | succ i => exact hall i (Nat.lt_of_succ_lt_succ hi)
    · rename_i hfree
      exact .inl (Option.not_isSome_iff_eq_none.mp hfree)

theorem freeNumber_range (r : Register) (k : Nat) {n : Nat} (h : 1 ≤ n ∧ n ≤ 65535) :
    1 ≤ r.freeNumber k n ∧ r.freeNumber k n ≤ 65535 := by
  induction k generalizing n with
  | zero => exact h
  | succ k ih =>
    unfold Register.freeNumber
    split
    · exact ih (nextVisit_range h)
    · exact h

/-- R95: with fewer than 96 visits, the 96 values searched cannot all be borne. -/
theorem newNumber_free {r : Register} (h : r.distinct) (hl : r.visits.length < 96) : r.find r.newNumber = none := by
  obtain ⟨_, _, _, _, hcounter⟩ := h
  obtain hfree | hall := freeNumber_cases r 96 r.counter
  · exact hfree
  · have hinj : ((List.range 96).map (fun i => nextVisit^[i] r.counter)).Nodup := by
      refine List.nodup_range.map_on (fun i hi j hj e => ?_)
      rw [List.mem_range] at hi hj
      rw [nextVisit_iterate hcounter, nextVisit_iterate hcounter] at e
      omega
    have hsub : (List.range 96).map (fun i => nextVisit^[i] r.counter) ⊆ r.visits.map (·.number) := by
      intro y hy
      obtain ⟨i, hi, rfl⟩ := List.mem_map.mp hy
      obtain ⟨x, hx⟩ := Option.isSome_iff_exists.mp (hall i (List.mem_range.mp hi))
      obtain ⟨hmem, hnum⟩ := find_some hx
      exact List.mem_map.mpr ⟨x, hmem, hnum⟩
    have hcount := (List.subperm_of_subset hinj hsub).length_le
    rw [List.length_map, List.length_map, List.length_range] at hcount
    omega

/-- R95, R98, R103: a visit appended under the next free number, and its lane bound to it. -/
theorem Register.Sound.append {r : Register} (h : r.Sound) (hl : r.visits.length < 96) {v : Visit} (n : LaneId)
    (hnum : v.number = r.newNumber) (hplate : ∀ x ∈ r.visits, x.plate ≠ v.plate) (hs : v.state ≠ .onSite) :
    (Register.bind { r with visits := r.visits ++ [v], counter := nextVisit v.number } n v.number).Sound := by
  have hfree : ∀ x ∈ r.visits, x.number ≠ v.number := by
    rw [hnum]
    exact find_none.mp (newNumber_free h.distinct hl)
  obtain ⟨⟨_, hnumbers, hplates, hrange, hcounter⟩, hbound, honce⟩ := h
  have hnew : 1 ≤ v.number ∧ v.number ≤ 65535 := hnum ▸ freeNumber_range r 96 hcounter
  have hsound : Register.Sound { r with visits := r.visits ++ [v], counter := nextVisit v.number } := by
    refine ⟨⟨?_, ?_, ?_, fun x hx => ?_, nextVisit_range hnew⟩, fun m w hm => ?_, honce⟩
    · simp only [List.length_append, List.length_singleton]
      omega
    · simpa [List.nodup_append, hnumbers] using hfree
    · simpa [List.nodup_append, hplates] using hplate
    · obtain hold | hone := List.mem_append.mp hx
      · exact hrange x hold
      · rw [List.mem_singleton.mp hone]
        exact hnew
    · obtain ⟨x, hx, hxw, hxs⟩ := hbound m w hm
      exact ⟨x, List.mem_append_left _ hx, hxw, hxs⟩
  refine hsound.bind n (x := v) ?_ hs (fun m hm => ?_)
  · have hnone : r.visits.find? (fun x => x.number == v.number) = none := find_none.mpr hfree
    simp [Register.find, hnone]
  · obtain ⟨x, hx, hxw, _⟩ := hbound m v.number hm
    exact hfree x hx hxw

/-! ### A reset -/

/-- R128: a WEIGH_OUT visit returns to ON_SITE, and its binding ends. -/
theorem staysSound_afterReset (r : Register) : r.staysSound r.afterReset := by
  refine staysSound_map Visit.afterReset rfl rfl (fun _ x _ => ?_) (fun _ n v hn => ?_)
  · obtain ⟨hnum, hplate, _⟩ := visitAfterReset_frame x
    exact ⟨hnum, hplate⟩
  · have hget : r.bindingAfterReset (r.bindings.get n) = some v := (get_map r.bindings _ n).symm.trans hn
    unfold Register.bindingAfterReset at hget
    split at hget
    · cases hget
    · rename_i w hw
      split at hget
      · cases hget
      · rename_i hout
        cases hget
        refine ⟨hw, fun x hx hsite => ?_⟩
        rw [hx] at hout
        unfold Visit.afterReset
        cases hstate : x.state with
        | weighIn =>
          dsimp only
          split <;> simp
        | entering | released => simp
        | onSite => exact absurd hstate hsite
        | weighOut => exact absurd (by simp [hstate]) hout

theorem sound_reset : Register.reset.Sound := ⟨reset_distinct, reset_boundOnce⟩

end Sys2Proof.Machine
end

section
/-! PROOF. What the operations of the yard do to a sound register (R94, R98, R104 to R107, R113, R115, R116, R121, R125):
each keeps it sound. -/

namespace Sys2Proof.Machine

/-- The register stays sound from one state to another. -/
def State.staysSound (s t : State) : Prop := s.register.staysSound t.register

theorem State.staysSound.refl (s : State) : s.staysSound s := id

theorem State.staysSound.trans {a b c : State} (h : a.staysSound b) (h' : b.staysSound c) : a.staysSound c :=
  Register.staysSound.trans h h'

theorem staysSound_of_register {s t : State} (h : t.register = s.register) : s.staysSound t := by
  unfold State.staysSound
  rw [h]
  exact .refl _

/-- What lies outside the register may change first. -/
theorem State.staysSound.after {s u t : State} (h : u.staysSound t) (hu : u.register = s.register) : s.staysSound t :=
  (staysSound_of_register hu).trans h

theorem staysSound_foldl {α : Type} (f : State → α → State) (hf : ∀ (u : State) a, u.staysSound (f u a)) (l : List α)
    (s : State) : s.staysSound (l.foldl f s) := by
  induction l generalizing s with
  | nil => exact .refl s
  | cons a l ih => exact (hf s a).trans (ih _)

/-! ### Lanes -/

theorem staysSound_takePassage (n : LaneId) (c : CauseKind) (s : State) : s.staysSound (takePassage n c s) := by
  unfold takePassage
  cases c with
  | admitted v =>
    dsimp only
    split
    · exact staysSound_update_unbind (fun x hx => ⟨(find_some hx).2, rfl⟩)
    · exact .refl s
  | released v =>
    dsimp only
    split
    · exact staysSound_leave _ v
    · exact .refl s
  | manual | safety => exact .refl s

theorem staysSound_applyLane (n : LaneId) (r : LaneStep) (s : State) : s.staysSound (applyLane n r s) := by
  unfold State.staysSound
  rw [applyLane_register]
  cases r.passage with
  | none => exact .refl _
  | some c => exact staysSound_takePassage n c s

theorem staysSound_raiseLane (n : LaneId) (c : CauseKind) (s : State) : s.staysSound (raiseLane n c s) :=
  staysSound_of_register (raiseLane_register n c s)

theorem staysSound_withdrawLane (n : LaneId) (v : Nat) (s : State) : s.staysSound (withdrawLane n v s) :=
  staysSound_of_register (withdrawLane_register n v s)

theorem staysSound_raiseIfOccupied (n : LaneId) (c : CauseKind) (s : State) : s.staysSound (raiseIfOccupied n c s) :=
  staysSound_of_register (raiseIfOccupied_register n c s)

/-! ### The journal's part -/

theorem writeRecord_register (t : Ticket) (s : State) : (writeRecord t s).register = s.register := by
  rw [(writeRecord_frame t s).1]

theorem fillAll_register (s : State) : (fillAll s).register = s.register := by
  rw [fillAll_frame]

theorem releaseVisit_register (v : Visit) (s : State) :
    (releaseVisit v s).register = s.register.update v.number (fun _ => v.released s.journal.counter) := by
  unfold releaseVisit
  dsimp only
  rw [writeRecord_register]

/-- R113: a visit that the register holds is released with its number and registration. -/
theorem staysSound_releaseVisit {v x : Visit} {s : State} (hx : s.register.find v.number = some x)
    (hp : v.plate = x.plate) : s.staysSound (releaseVisit v s) := by
  unfold State.staysSound
  rw [releaseVisit_register]
  refine staysSound_update (fun y hy => ?_) (fun _ _ _ e => by cases e)
  cases hx.symm.trans hy
  exact ⟨rfl, hp⟩

/-! ### Captures -/

theorem staysSound_entryOutcome (n : LaneId) {v : Visit} (o : CapOutcome) {s : State}
    (hv : s.register.find v.number = some v) (hs : v.state = .weighIn) : s.staysSound (entryOutcome n v o s) := by
  have hsite : ∀ x, s.register.find v.number = some x → x.state ≠ .onSite := by
    intro x hx
    cases hv.symm.trans hx
    rw [hs]
    decide
  unfold entryOutcome
  split
  · unfold State.staysSound
    rw [raiseIfOccupied_register]
    exact staysSound_update (fun x hx => ⟨(find_some hx).2, rfl⟩) (fun _ _ _ => by simp [Visit.weighedIn])
  · exact staysSound_leave _ _
  · exact staysSound_update (fun x hx => ⟨(find_some hx).2, rfl⟩) (fun x hx _ => hsite x hx)

theorem staysSound_exitOutcome (n : LaneId) {v : Visit} (o : CapOutcome) {s : State}
    (hv : s.register.find v.number = some v) : s.staysSound (exitOutcome n v o s) := by
  unfold exitOutcome
  split
  · exact ((staysSound_releaseVisit (v := v.weighedOut _) hv rfl).trans (staysSound_raiseIfOccupied _ _ _)).trans
      (staysSound_of_register (fillAll_register _))
  · exact staysSound_update_unbind (fun x hx => ⟨(find_some hx).2, rfl⟩)

theorem staysSound_handOutcome (n : LaneId) (w : CapOwner) (o : CapOutcome) (s : State) :
    s.staysSound (handOutcome n w o s) := by
  unfold handOutcome
  cases w with
  | spot l => exact .refl s
  | visitIn v =>
    dsimp only
    split
    · exact .refl s
    · rename_i x hx
      split
      · rename_i hc
        exact staysSound_entryOutcome n o ((find_some hx).2.symm ▸ hx) hc.1
      · exact .refl s
  | visitOut v =>
    dsimp only
    split
    · exact .refl s
    · rename_i x hx
      split
      · exact staysSound_exitOutcome n o ((find_some hx).2.symm ▸ hx)
      · exact .refl s

theorem staysSound_endCapture (d : DeckId) (o : CapOutcome) (s : State) : s.staysSound (endCapture d o s) := by
  unfold endCapture
  split
  · exact .refl s
  · exact (staysSound_handOutcome d _ o _).after rfl

theorem staysSound_endVisitCapture (d : DeckId) (v : Nat) (s : State) : s.staysSound (endVisitCapture d v s) := by
  unfold endVisitCapture
  split
  · exact .refl s
  · split
    · exact staysSound_endCapture d _ s
    · exact .refl s

/-! ### Decks -/

theorem startTimeout_register (d : DeckId) (s : State) : (startTimeout d s).register = s.register := by
  unfold startTimeout
  split
  · rfl
  · split <;> rfl

theorem staysSound_onDeckState (d : DeckId) (new : DeckState) (s : State) : s.staysSound (onDeckState d new s) := by
  unfold onDeckState
  cases new with
  | active => exact staysSound_of_register (startTimeout_register d s)
  | warming => exact .refl s
  | fault | service | sleep | unused => exact staysSound_endCapture d _ s

theorem staysSound_deckChange (d : DeckId) (new : DeckState) (c : WakeCause) (s : State) :
    s.staysSound (deckChange d new c s) :=
  (staysSound_onDeckState d new (enterDeck d new c s)).after rfl

theorem staysSound_leaveFault (d : DeckId) (s : State) : s.staysSound (leaveFault d s) := by
  unfold leaveFault
  split
  · exact staysSound_deckChange d _ _ s
  · exact .refl s

theorem staysSound_enterFault (d : DeckId) (s : State) : s.staysSound (enterFault d s) := by
  unfold enterFault
  split
  · exact staysSound_deckChange d _ _ s
  · exact .refl s

theorem staysSound_leaveUnused (d : DeckId) (s : State) : s.staysSound (leaveUnused d s) := by
  unfold leaveUnused
  split
  · exact staysSound_deckChange d _ _ s
  · exact .refl s

theorem staysSound_becomeUnused (d : DeckId) (s : State) : s.staysSound (becomeUnused d s) := by
  unfold becomeUnused
  split
  · exact staysSound_deckChange d _ _ s
  · exact .refl s

theorem staysSound_wakeForRequest (d : DeckId) (s : State) : s.staysSound (wakeForRequest d s) := by
  unfold wakeForRequest
  split
  case h_1 => exact staysSound_deckChange d _ _ s
  all_goals exact .refl _

theorem staysSound_startCapture (d : DeckId) (w : CapOwner) (s : State) : s.staysSound (startCapture d w s) :=
  (staysSound_endCapture d _ s).trans ((staysSound_wakeForRequest d _).after rfl)

theorem staysSound_becomeClosed (s : State) : s.staysSound (becomeClosed s) := by
  refine State.staysSound.trans (b := { s with register := { s.register with mode := .closed } })
    (staysSound_mode s.register .closed) (staysSound_foldl _ (fun u d => ?_) _ _)
  split
  · exact staysSound_deckChange d _ _ u
  · exact .refl u

/-! ### Events of the yard -/

theorem staysSound_deckLoopEvent (d : DeckId) (i : LoopId) (b : Bool) (s : State) :
    s.staysSound (deckLoopEvent d i b s) := by
  unfold deckLoopEvent
  dsimp only
  split
  · split
    · exact staysSound_deckChange d _ _ s
    · exact .refl s
  · split
    · exact staysSound_deckChange d _ _ s
    · exact .refl s

theorem staysSound_captureLoopEvent (d : DeckId) (i : LoopId) (b : Bool) (s : State) :
    s.staysSound (captureLoopEvent d i b s) := by
  unfold captureLoopEvent
  split
  · exact .refl s
  · split
    · exact staysSound_endCapture d _ s
    · exact .refl s

theorem staysSound_loopEvent (n : LaneId) (i : LoopId) (b f : Bool) (s : State) :
    s.staysSound (loopEvent n i b f s) :=
  ((staysSound_deckLoopEvent n i b s).trans (staysSound_captureLoopEvent n i b _)).trans (staysSound_applyLane n _ _)

theorem staysSound_examineSample (d : DeckId) (zl : Bool) (s : State) : s.staysSound (examineSample d zl s) := by
  unfold examineSample
  split
  · split
    · exact staysSound_endCapture d _ s
    · exact .refl s
  · exact .refl s

theorem staysSound_sampleIfReady (d : DeckId) (s : State) : s.staysSound (sampleIfReady d s) := by
  unfold sampleIfReady
  dsimp only
  split
  · exact (staysSound_examineSample d _ _).after rfl
  · exact .refl s

theorem staysSound_takeReading (c : ChanId) (raw : Int) (s : State) : s.staysSound (takeReading c raw s) := by
  unfold takeReading
  dsimp only
  refine State.staysSound.after (u := s.setChan c ((s.chan c).accept (s.supervised (s.chan c)) raw)) ?_ rfl
  split
  · exact .refl _
  · refine State.staysSound.trans ?_ (staysSound_sampleIfReady _ _)
    split
    · exact staysSound_leaveFault _ _
    · exact .refl _

theorem staysSound_endPeriod (s : State) : s.staysSound (endPeriod s) := by
  refine (staysSound_foldl _ (fun u c => ?_) _ _).after rfl
  unfold tellLost
  split
  · exact .refl u
  · exact staysSound_enterFault _ u

theorem staysSound_loopDebounced (n : LaneId) (i : LoopId) (s : State) : s.staysSound (loopDebounced n i s) := by
  unfold loopDebounced
  dsimp only
  split
  · exact .refl s
  · exact (staysSound_loopEvent n i _ _ _).after rfl

theorem staysSound_faultAsserted (n : LaneId) (i : LoopId) (s : State) : s.staysSound (faultAsserted n i s) := by
  unfold faultAsserted
  dsimp only
  split
  · exact staysSound_of_register rfl
  · exact (staysSound_loopEvent n i _ _ _).after rfl

theorem staysSound_limitDebounced (n : LaneId) (i : LimitId) (s : State) : s.staysSound (limitDebounced n i s) := by
  unfold limitDebounced
  dsimp only
  split
  · exact .refl s
  · exact staysSound_applyLane n _ s

/-! ### Overstay and a completed write -/

/-- R121: the judgment changes OVERSTAY flags alone. -/
theorem staysSound_judgeOverstay (s : State) : s.staysSound (judgeOverstay s) := by
  refine staysSound_map _ rfl rfl (fun _ x _ => ?_) (fun _ n v hn => ⟨hn, fun x _ hs => ?_⟩)
  · split <;> exact ⟨rfl, rfl⟩
  · split <;> exact hs

theorem staysSound_calTakesEffect (c : ChanId) (r : CalRecord) (s : State) : s.staysSound (calTakesEffect c r s) := by
  have hleft : ∀ (d : Option DeckId) (u : State), u.staysSound (deckLeft d u) := by
    intro d u
    cases d with
    | none => exact .refl u
    | some d =>
      exact ((staysSound_becomeUnused d (emptyWindow d u)).trans (staysSound_leaveFault d _)).after rfl
  have hjoined : ∀ (d : Option DeckId) (u : State), u.staysSound (deckJoined d u) := by
    intro d u
    cases d with
    | none => exact .refl u
    | some d => exact (staysSound_leaveUnused d (emptyWindow d u)).after rfl
  unfold calTakesEffect
  dsimp only
  refine State.staysSound.after (u := s.setChan c ((s.chan c).calibrated r)) ?_ rfl
  split
  · split
    · exact .refl _
    · exact staysSound_of_register rfl
  · exact (hleft _ _).trans (hjoined _ _)

theorem staysSound_yardSetup (u : YardSetup) (s : State) : s.staysSound (yardSetupTakesEffect u s) := by
  unfold yardSetupTakesEffect
  dsimp only
  split
  · split <;> exact staysSound_of_register rfl
  · refine State.staysSound.trans ?_ (staysSound_judgeOverstay _)
    split <;> exact staysSound_of_register rfl

theorem staysSound_takesEffect (w : StoreWrite) (s : State) : s.staysSound (takesEffect w s) := by
  unfold takesEffect
  cases w with
  | tare i e => exact .refl s
  | cal c r => exact staysSound_calTakesEffect c r s
  | deck d u => exact (staysSound_leaveUnused d _).after rfl
  | lane n u => exact staysSound_of_register rfl
  | yard u => exact staysSound_yardSetup u s

theorem engineNext_register (z : Option DeckId) (s : State) : (engineNext z s).register = s.register := by
  unfold engineNext
  split
  · rfl
  · dsimp only
    split <;> rfl

theorem staysSound_completeWrite (s : State) : s.staysSound (completeWrite s) := by
  unfold completeWrite
  split
  · exact .refl s
  · dsimp only
    refine State.staysSound.trans ?_ (staysSound_of_register (engineNext_register _ _))
    exact (staysSound_takesEffect _ _).after rfl

end Sys2Proof.Machine
end

section
/-! PROOF. Every step keeps the register sound, and a visit in a CLOSING yard (R94, R95, R98, R101, R124): the bodies of the
requests, resets and start-up, and every command. -/

namespace Sys2Proof.Machine

/-! ### The start of a capture asked for a visit -/

/-- R52: a VISIT request is taken where the deck is capturable, the DECK loop occupied and no VISIT capture waits. -/
theorem visitRefusal_eq_none {s : State} {d : DeckId} :
    visitRefusal s d = none ↔ (s.deck d).state.capturable = true ∧ (s.lane d).deckLoop.occupied = true ∧
      ∀ c, (s.unit d).cap = some c → c.owner.kind = .spot := by
  unfold visitRefusal
  cases hcap : (s.deck d).state.capturable with
  | false => simp
  | true =>
    cases hloop : (s.lane d).deckLoop.occupied with
    | false => simp
    | true =>
      cases hunit : (s.unit d).cap with
      | none => simp
      | some c =>
        by_cases hk : c.owner.kind = .spot
        · simp [hk]
        · simp [hk]

theorem wakeForRequest_register (d : DeckId) (s : State) : (wakeForRequest d s).register = s.register := by
  unfold wakeForRequest
  split <;> rfl

/-- R65, R106: the end of a SPOT capture is no matter of the register. -/
theorem endCapture_spot_register {d : DeckId} {s : State} (h : ∀ c, (s.unit d).cap = some c → c.owner.kind = .spot)
    (o : CapOutcome) : (endCapture d o s).register = s.register := by
  unfold endCapture
  split
  · rfl
  · rename_i c hc
    have hk := h c hc
    cases ho : c.owner with
    | spot l => rfl
    | visitIn v | visitOut v =>
      rw [ho] at hk
      cases hk

theorem startCapture_register {d : DeckId} {s : State} (h : ∀ c, (s.unit d).cap = some c → c.owner.kind = .spot)
    (w : CapOwner) : (startCapture d w s).register = s.register := by
  unfold startCapture
  dsimp only
  rw [wakeForRequest_register, setUnit_register, endCapture_spot_register h]

/-! ### The bodies of the requests on visits -/

/-- The work behind a rule's checks is done only where they all hold. -/
theorem closes_checked_of {s : State} {P : State → Prop} (checks : List (Bool × Status)) {go : Answer}
    (h : (∀ p ∈ checks, p.1 = true) → go.closes s P) : (checked checks s go).closes s P := by
  unfold checked firstFailure
  cases hf : checks.find? (fun p => !p.1) with
  | none => exact h (fun p hp => by simpa using List.find?_eq_none.mp hf p hp)
  | some p => exact closes_refuse _

/-- R102, R103: the visit record of an ADMIT before its plan has decided whether it waits for a weighing. -/
def admitForm (s : State) (l : LinkId) (f : AdmitFields) : Visit :=
  { number := s.register.newNumber, plate := f.plate, account := admitAccount f (usableTare s f), stream := f.stream
    direction := f.direction, tareMode := if (usableTare s f).isSome then .stored else .weighed
    storedTare := (usableTare s f).map (·.tare), entryLane := f.lane, exitLane := none, first := none, second := none
    state := .weighIn, failure := none, ticket := none, admitted := s.clock.time
    flags := ⟨f.tareMode == .stored && (usableTare s f).isNone, false, false, false, false, false⟩, link := l
    capMark := true }

theorem admitVisit_eq (s : State) (l : LinkId) (f : AdmitFields) :
    admitVisit s l f = if (admitForm s l f).needsEntry then admitForm s l f
      else { admitForm s l f with state := .entering, capMark := false } := rfl

theorem admitVisit_number (s : State) (l : LinkId) (f : AdmitFields) :
    (admitVisit s l f).number = s.register.newNumber := by
  rw [admitVisit_eq]
  generalize hv : admitForm s l f = v
  split <;> exact hv ▸ rfl

theorem admitVisit_plate (s : State) (l : LinkId) (f : AdmitFields) : (admitVisit s l f).plate = f.plate := by
  rw [admitVisit_eq]
  generalize hv : admitForm s l f = v
  split <;> exact hv ▸ rfl

theorem admitVisit_not_onSite (s : State) (l : LinkId) (f : AdmitFields) : (admitVisit s l f).state ≠ .onSite := by
  rw [admitVisit_eq]
  split <;> exact fun h => by cases h

/-- R101 checks 7 and 8, R103: the visit appended bears a registration and a number of its own. -/
theorem staysSound_appendVisit {l : LinkId} {f : AdmitFields} {s u : State} (hu : u.register = s.register)
    (hc : ∀ p ∈ admitChecks s f (admitVisit s l f), p.1 = true) :
    s.staysSound (appendVisit f.lane (admitVisit s l f) u) := by
  have hplate : ∀ x ∈ s.register.visits, x.plate ≠ (admitVisit s l f).plate := by
    rw [admitVisit_plate]
    simpa using hc (!s.register.visits.any (fun x => x.plate == f.plate), .duplicate) (by simp [admitChecks])
  have hroom : s.register.visits.length < 96 := by
    simpa using hc (decide (s.register.visits.length < 96), .registerFull) (by simp [admitChecks])
  unfold State.staysSound appendVisit
  dsimp only
  rw [hu]
  exact fun h => h.append hroom f.lane (admitVisit_number s l f) hplate (admitVisit_not_onSite s l f)

theorem admitBody_sound (l : LinkId) (f : AdmitFields) (s : State) : (admitBody l f s).closes s s.staysSound := by
  unfold admitBody
  dsimp only
  refine closes_checked_of _ (fun hc => ?_)
  split
  · exact closes_refuse _
  · rename_i hcapture
    split
    · rename_i hneeds
      rw [captureCheck, if_pos hneeds] at hcapture
      obtain ⟨_, _, hspot⟩ := visitRefusal_eq_none.mp hcapture
      exact closes_taken (staysSound_appendVisit (startCapture_register hspot _) hc) _ _
    · exact closes_taken ((staysSound_appendVisit rfl hc).trans (staysSound_raiseLane _ _ _)) _ _

/-- R112: an ON_SITE visit, which no lane serves, bound to the exit lane it leaves from. -/
theorem Register.Sound.depart {r : Register} (h : r.Sound) {v : Nat} {x w : Visit} (n : LaneId)
    (hx : r.find v = some x) (hs : x.state = .onSite) (hn : w.number = v) (hp : w.plate = x.plate)
    (hw : w.state ≠ .onSite) : ((r.update v (fun _ => w)).bind n v).Sound := by
  have hupdated : (r.update v (fun _ => w)).Sound := by
    refine staysSound_update (fun y hy => ?_) (fun _ _ _ => hw) h
    cases hx.symm.trans hy
    exact ⟨hn, hp⟩
  exact hupdated.bind n (find_update_self (fun _ => w) (fun _ _ => hn) hx) hw (h.unbound_of_onSite hx hs)

theorem departForCapture_register {n : LaneId} {s : State}
    (h : ∀ c, (s.unit n).cap = some c → c.owner.kind = .spot) (v : Visit) :
    (departForCapture n v s).register =
      (s.register.update v.number (fun _ => { v with state := .weighOut, capMark := true })).bind n v.number := by
  unfold departForCapture
  dsimp only
  rw [startCapture_register h]

theorem departReleased_register (n : LaneId) (v : Visit) (s : State) :
    (departReleased n v s).register =
      (s.register.update v.number (fun _ => v.released s.journal.counter)).bind n v.number := by
  unfold departReleased
  dsimp only
  rw [fillAll_register, raiseLane_register]
  dsimp only
  rw [releaseVisit_register]

theorem departBody_sound (f : DepartFields) (s : State) : (departBody f s).closes s s.staysSound := by
  unfold departBody
  refine closes_checked _ ?_
  split
  · exact closes_refuse _
  · rename_i v hv
    refine closes_checked_of _ (fun hc => ?_)
    have hnum : v.number = f.visit := (find_some hv).2
    have hsite : v.state = .onSite := by
      simpa using hc (v.state == .onSite, .wrongState) (by simp [departVisitChecks])
    split
    · exact closes_refuse _
    · rename_i hcapture
      dsimp only
      split
      · rename_i hneeds
        rw [captureCheck, if_pos hneeds] at hcapture
        obtain ⟨_, _, hspot⟩ := visitRefusal_eq_none.mp hcapture
        refine closes_taken (fun h => ?_) _ _
        rw [departForCapture_register hspot]
        exact h.depart _ (show s.register.find v.number = some v from hnum ▸ hv) hsite rfl rfl (fun e => by cases e)
      · refine closes_taken (fun h => ?_) _ _
        rw [departReleased_register]
        exact h.depart _ (show s.register.find v.number = some v from hnum ▸ hv) hsite rfl rfl (fun e => by cases e)

/-- A visit changed in a field that is neither its number nor its registration nor its state. -/
theorem staysSound_touch (r : Register) (v : Nat) {f : Visit → Visit}
    (hf : ∀ x : Visit, (f x).number = x.number ∧ (f x).plate = x.plate ∧ (f x).state = x.state) :
    r.staysSound (r.update v f) :=
  staysSound_update (fun x hx => ⟨(hf x).1.trans (find_some hx).2, (hf x).2.1⟩) (fun x _ hs => (hf x).2.2 ▸ hs)

theorem staysSound_recaptureVisit (n : LaneId) (v : Visit) (s : State) : s.staysSound (recaptureVisit n v s) :=
  fun h => staysSound_touch (startCapture n (.visitIn v.number) s).register v.number
    (f := fun x => { x with capMark := true }) (fun _ => ⟨rfl, rfl, rfl⟩) (staysSound_startCapture n _ s h)

theorem recaptureBody_sound (n : LaneId) (s : State) : (recaptureBody n s).closes s s.staysSound := by
  unfold recaptureBody
  refine closes_checked _ ?_
  split
  · exact closes_refuse _
  · refine closes_checked _ ?_
    split
    · exact closes_refuse _
    · exact closes_taken (staysSound_recaptureVisit n _ s) _ _

theorem staysSound_cancelVisit (n : LaneId) (v : Nat) (s : State) : s.staysSound (cancelVisit n v s) :=
  State.staysSound.trans (b := { s with register := s.register.leave v }) (staysSound_leave s.register v)
    (staysSound_endVisitCapture n v _)

theorem cancelBody_sound (n : LaneId) (s : State) : (cancelBody n s).closes s s.staysSound := by
  unfold cancelBody
  refine closes_checked _ ?_
  split
  · exact closes_refuse _
  · split
    · exact closes_taken (staysSound_cancelVisit n _ s) _ _
    · exact closes_refuse _

theorem staysSound_clearVisit (n : LaneId) (v : Nat) (s : State) : s.staysSound (clearVisit n v s) :=
  fun h => staysSound_leave (withdrawLane n v s).register v (staysSound_withdrawLane n v s h)

theorem clearLaneBody_sound (n : LaneId) (s : State) : (clearLaneBody n s).closes s s.staysSound := by
  unfold clearLaneBody
  refine closes_checked _ ?_
  split
  · exact closes_refuse _
  · split
    · exact closes_taken (staysSound_clearVisit n _ s) _ _
    · exact closes_refuse _

theorem staysSound_onLane (n : Option LaneId) {f : LaneId → State → State}
    (hf : ∀ n (u : State), u.staysSound (f n u)) (s : State) : s.staysSound (onLane n f s) := by
  cases n with
  | none => exact .refl s
  | some n => exact hf n s

theorem staysSound_voidRecorded (v : Visit) (s : State) : s.staysSound (voidRecorded v s) := by
  unfold voidRecorded
  dsimp only
  refine State.staysSound.trans ?_ (staysSound_onLane _ (fun n u => staysSound_endVisitCapture n _ u) _)
  refine State.staysSound.trans ?_ (staysSound_of_register (fillAll_register _))
  refine State.staysSound.trans ?_ (staysSound_leave _ v.number)
  exact (staysSound_onLane _ (fun n u => staysSound_withdrawLane n _ u) _).after (writeRecord_register _ s)

theorem voidBody_sound (num : Nat) (s : State) : (voidBody num s).closes s s.staysSound := by
  unfold voidBody
  split
  · exact closes_refuse _
  · split
    · exact closes_taken (staysSound_cancelVisit _ _ s) _ _
    · exact closes_taken (staysSound_voidRecorded _ s) _ _
    · exact closes_taken (staysSound_voidRecorded _ s) _ _
    · exact closes_taken (staysSound_voidRecorded _ s) _ _
    · exact closes_refuse _

/-! ### The bodies of the other requests that close an event -/

theorem reraiseBody_sound (n : LaneId) (s : State) : (reraiseBody n s).closes s s.staysSound := by
  unfold reraiseBody
  refine closes_checked _ ?_
  split
  · exact closes_refuse _
  · exact closes_checked _ (closes_taken (staysSound_raiseLane n _ s) _ _)

theorem lowerResetBody_sound (n : LaneId) (s : State) : (lowerResetBody n s).closes s s.staysSound := by
  unfold lowerResetBody
  refine closes_checked _ ?_
  split
  · exact closes_refuse _
  · exact closes_taken (staysSound_applyLane n _ s) _ _

theorem manualRaiseBody_sound (n : LaneId) (s : State) : (manualRaiseBody n s).closes s s.staysSound :=
  closes_taken (staysSound_applyLane n _ s) _ _

theorem spotWeighBody_sound (l : LinkId) (d : DeckId) (s : State) : (spotWeighBody l d s).closes s s.staysSound :=
  closes_checked _ (closes_taken (staysSound_startCapture d _ s) _ _)

theorem wakeBody_sound (d : DeckId) (s : State) : (wakeBody d s).closes s s.staysSound := by
  unfold wakeBody
  split
  · exact closes_taken (staysSound_wakeForRequest d s) _ _
  · exact closes_taken (staysSound_wakeForRequest d s) _ _
  · exact closes_taken (staysSound_of_register rfl) _ _
  · exact .inl rfl
  · exact closes_refuse _
  · exact closes_refuse _

theorem serviceEnterBody_sound (d : DeckId) (s : State) : (serviceEnterBody d s).closes s s.staysSound := by
  have hin : s.staysSound (s.inService d) := by
    unfold State.inService
    split
    · exact (staysSound_deckChange d _ _ _).after rfl
    · exact staysSound_of_register rfl
  unfold serviceEnterBody
  split
  · exact closes_refuse _
  · rw [enterService_eq]
    exact closes_taken (hin.trans (staysSound_applyLane d _ _)) _ _

theorem serviceLeaveBody_sound (d : DeckId) (s : State) : (serviceLeaveBody d s).closes s s.staysSound := by
  have hleave : s.staysSound (leaveService d s) := by
    unfold leaveService
    dsimp only
    split
    · exact (staysSound_deckChange d _ _ _).after rfl
    · exact staysSound_of_register rfl
  unfold serviceLeaveBody
  split
  · exact closes_taken hleave _ _
  · exact closes_refuse _

theorem staysSound_forceVisit (v : Visit) (s : State) : s.staysSound (forceVisit v s) := by
  unfold forceVisit
  split
  · exact staysSound_onLane _ (fun n u => staysSound_endVisitCapture n _ u) s
  · exact staysSound_onLane _ (fun n u => staysSound_withdrawLane n _ u) s
  · exact .refl s
  · exact staysSound_onLane _ (fun n u => staysSound_endVisitCapture n _ u) s
  · exact staysSound_onLane _ (fun n u => staysSound_withdrawLane n _ u) s

theorem staysSound_forceClosed (s : State) : s.staysSound (forceClosed s) :=
  (staysSound_foldl _ (fun u v => staysSound_forceVisit v u) _ s).trans (staysSound_becomeClosed _)

theorem yardModeBody_sound (m : ModeAsked) (s : State) : (yardModeBody m s).closes s s.staysSound := by
  have hmode : ∀ x, s.staysSound (s.withMode x) := fun x => staysSound_mode s.register x
  unfold yardModeBody
  split
  · exact .inl rfl
  · exact closes_taken (hmode _) _ _
  · exact closes_taken (staysSound_forceClosed s) _ _
  · exact closes_taken (hmode _) _ _
  · exact .inl rfl
  · exact closes_taken (staysSound_forceClosed s) _ _
  · split
    · exact closes_taken (hmode _) _ _
    · exact closes_refuse _
  · exact closes_refuse _
  · exact closes_refuse _

/-! ### Sound, and a visit in a CLOSING yard -/

/-- What a step keeps of the register: that it is sound, and that a CLOSING yard holds a visit (R124). -/
structure RegisterKept (s t : State) : Prop where
  sound : s.staysSound t
  closing : s.closingHolds → t.closingHolds

/-- R124: the close of an event leaves no CLOSING yard without a visit. -/
theorem finish_closingHolds (m : YardMode) (s : State) : (finish m s).closingHolds := by
  obtain ⟨_, _, _, hregister, _⟩ := finish_parts m s _ rfl
  unfold State.closingHolds
  rw [hregister]
  unfold autoClose
  split
  · rename_i hclosing
    rw [becomeClosed_register (List.isEmpty_iff.mp hclosing.2)]
    exact fun h => by cases h
  · rename_i hclosing
    exact fun hm he => hclosing ⟨hm, List.isEmpty_iff.mpr he⟩

theorem RegisterKept.of_register {s t : State} (h : t.register = s.register) : RegisterKept s t :=
  ⟨staysSound_of_register h, closingHolds_of_sameSize (h ▸ .refl _)⟩

theorem RegisterKept.of_finish {s u : State} (m : YardMode) (h : s.staysSound u) : RegisterKept s (finish m u) := by
  refine ⟨h.trans ?_, fun _ => finish_closingHolds m u⟩
  obtain ⟨y, hregister⟩ := finish_register m u
  unfold State.staysSound
  rw [hregister]
  exact staysSound_mode _ y

theorem RegisterKept.of_closes {s : State} {a : Answer} (h : a.closes s s.staysSound) : RegisterKept s a.state := by
  obtain e | ⟨u, hu, e⟩ := h
  · exact .of_register (congrArg State.register e)
  · rw [e]
    exact .of_finish _ hu

/-- A command that is an event of the yard. -/
theorem RegisterKept.event {i : Instr} {now : State → Bool} {f : State → State} {s t : State}
    (he : exec i s = yardEvent now f s) (hf : s.staysSound (f s)) (h : exec i s = .next t) : RegisterKept s t := by
  rw [he] at h
  obtain rfl | ⟨_, _, rfl⟩ := yardEvent_cases h
  · exact .of_register rfl
  · exact .of_finish _ hf

theorem RegisterKept.request {α : Type} (l : LinkId) (code tag : Byte) (allowed : Role → Bool) (fields : Option α)
    {body : α → State → Answer} (s : State) (hbody : ∀ x u, RegisterKept u (body x u).state) :
    RegisterKept s (request l code tag allowed fields body s) := by
  rcases request_cases l code tag allowed fields body s with e | ⟨k, _, e⟩ | ⟨_, x, r, e⟩
  · rw [e]
    exact .of_register rfl
  · rw [e]
    exact .of_register (setLink_register s l k)
  · rw [e]
    exact ⟨(hbody x (s.handling l code tag)).sound, (hbody x (s.handling l code tag)).closing⟩

/-- A command that is a request whose body closes an event. -/
theorem RegisterKept.closing_request {α : Type} {i : Instr} {l : LinkId} {code tag : Byte} {allowed : Role → Bool}
    {fields : Option α} {body : α → State → Answer} {s t : State}
    (he : exec i s = .next (Machine.request l code tag allowed fields body s))
    (hbody : ∀ x u, (body x u).closes u u.staysSound) (h : exec i s = .next t) : RegisterKept s t := by
  rw [he] at h
  cases h
  exact .request l code tag allowed fields s (fun x u => .of_closes (hbody x u))

/-- A command that is a request whose body leaves the register; the level of CALEN it may sample is no matter of it. -/
theorem RegisterKept.leaving_request {α : Type} {i : Instr} {l : LinkId} {code tag : Byte} {allowed : Role → Bool}
    {fields : Option α} {body : α → State → Answer} {s u t : State} (hu : u.register = s.register)
    (he : exec i s = .next (Machine.request l code tag allowed fields body u))
    (hbody : ∀ x u, (body x u).state.register = u.register) (h : exec i s = .next t) : RegisterKept s t := by
  rw [he] at h
  cases h
  have hkept := RegisterKept.request l code tag allowed fields u (fun x w => .of_register (hbody x w))
  exact ⟨hkept.sound.after hu, fun hc => hkept.closing (closingHolds_of_sameSize (hu ▸ .refl _) hc)⟩

theorem reclassifyBody_kept (f : Nat × Nat) (s : State) : RegisterKept s (reclassifyBody f s).state := by
  unfold reclassifyBody
  split
  · exact .of_register rfl
  · split
    · exact .of_register rfl
    · exact ⟨staysSound_touch s.register f.1 (fun _ => ⟨rfl, rfl, rfl⟩),
        closingHolds_of_sameSize (update_sameSize s.register f.1 _)⟩

theorem judgeOverstay_kept (s : State) : RegisterKept s (judgeOverstay s) :=
  ⟨staysSound_judgeOverstay s, closingHolds_of_sameSize ⟨rfl, List.length_map _⟩⟩

/-! ### Bodies that leave the register -/

theorem checked_register {checks : List (Bool × Status)} {s : State} {go : Answer}
    (h : go.state.register = s.register) : (checked checks s go).state.register = s.register := by
  unfold checked
  split
  · rfl
  · exact h

theorem zeroBody_register (d : DeckId) (s : State) : (zeroBody d s).state.register = s.register :=
  checked_register rfl

theorem zeroCalBody_register (calen : Bool) (d : DeckId) (s : State) :
    (zeroCalBody calen d s).state.register = s.register := by
  refine checked_register ?_
  unfold startZeroCal
  dsimp only
  split <;> rfl

theorem tareWriteBody_register (e : TareEntry) (s : State) : (tareWriteBody e s).state.register = s.register := by
  unfold tareWriteBody
  split
  · rfl
  · split <;> rfl

theorem tareEraseBody_register (p : Plate) (s : State) : (tareEraseBody p s).state.register = s.register := by
  unfold tareEraseBody
  split
  · rfl
  · split <;> rfl

theorem tareReadBody_register (f : TareReadForm) (s : State) : (tareReadBody f s).state.register = s.register := by
  unfold tareReadBody
  split
  · rfl
  · split <;> rfl

theorem setupWriteBody_register (calen : Bool) (g : SetupGiven) (s : State) :
    (setupWriteBody calen g s).state.register = s.register := by
  unfold setupWriteBody
  split <;> rfl

theorem ticketBaseBody_register (n : Nat) (s : State) : (ticketBaseBody n s).state.register = s.register := by
  unfold ticketBaseBody
  split <;> rfl

theorem readVisitBody_register (v : Nat) (s : State) : (readVisitBody v s).state.register = s.register := by
  unfold readVisitBody
  split <;> rfl

theorem readTicketBody_register (n : Nat) (s : State) : (readTicketBody n s).state.register = s.register := by
  unfold readTicketBody
  split
  · rfl
  · split <;> rfl

theorem slotReadBody_register (l : LinkId) (i : SlotId) (s : State) :
    (slotReadBody l i s).state.register = s.register := by
  unfold slotReadBody
  split <;> rfl

theorem slotReturnBody_register (l : LinkId) (i : SlotId) (s : State) :
    (slotReturnBody l i s).state.register = s.register := by
  unfold slotReturnBody
  split
  · rfl
  · split <;> rfl

theorem journalRoleBody_register (l : LinkId) (r : JournalRole) (s : State) :
    (journalRoleBody l r s).state.register = s.register := by
  unfold journalRoleBody
  split <;> rfl

/-! ### Resets and start-up -/

theorem abandonWrite_register (s : State) : (abandonWrite s).register = s.register := by
  rw [(abandonWrite_frame s).1]

theorem abandonMarked_register (s : State) : (abandonMarked s).register = s.register := by
  unfold abandonMarked
  split
  · rfl
  · exact abandonWrite_register s

/-- R128, R121: what the come-ups make of the register: the visits that live through the reset, judged for overstay. -/
theorem comeUps_kept (s : State) : RegisterKept s (comeUps s) := by
  obtain ⟨_, hdecks, _⟩ := decksUp_frame (cellsUp (registerUp s))
  obtain ⟨_, hlanes, _⟩ := lanesUp_frame (decksUp (cellsUp (registerUp s)))
  have hup : (fillAll (journalUp (storeUp (lanesUp (decksUp (cellsUp (registerUp s))))))).register =
      s.register.afterReset := (fillAll_register _).trans (hlanes.trans hdecks)
  have hreset : RegisterKept s (registerUp s) :=
    ⟨staysSound_afterReset s.register, closingHolds_of_sameSize ⟨rfl, List.length_map _⟩⟩
  have hjudged := judgeOverstay_kept { fillAll (journalUp (storeUp (lanesUp (decksUp (cellsUp (registerUp s)))))) with
    power := { (fillAll (journalUp (storeUp (lanesUp (decksUp (cellsUp (registerUp s))))))).power with
      phase := .running } }
  exact ⟨hreset.sound.trans (hjudged.sound.after hup),
    fun h => hjudged.closing (closingHolds_of_sameSize (s := registerUp s) (hup ▸ .refl _) (hreset.closing h))⟩

/-- R201: a backup domain found not valid leaves an empty register in a CLOSED yard. -/
theorem backupCheck_kept (s : State) : RegisterKept s (backupCheck s) := by
  unfold backupCheck
  split
  · dsimp only
    split
    · exact .of_register rfl
    · exact ⟨fun _ => sound_reset, fun _ h => by cases h⟩
  · exact .of_register rfl

theorem RegisterKept.trans {a b c : State} (h : RegisterKept a b) (h' : RegisterKept b c) : RegisterKept a c :=
  ⟨h.sound.trans h'.sound, fun hc => h'.closing (h.closing hc)⟩

/-! ### Every command -/

theorem exec_storeWriteDone (s : State) :
    exec .storeWriteDone s = yardEvent (fun s => s.store.engine.isSome) completeWrite s := rfl


theorem dropFrame_register (l : LinkId) (s : State) : (dropFrame l s).register = s.register := by
  unfold dropFrame
  split <;> rfl

theorem pinEvent_kept {i : Instr} {s t : State} {n : LaneId} {k : Lane} (he : exec i s = .next (s.setLane n k))
    (h : exec i s = .next t) : RegisterKept s t := by
  rw [he] at h
  cases h
  exact .of_register rfl

/-- R94, R95, R98, R124, command by command. -/
theorem exec_registerKept {i : Instr} {s t : State} (h : exec i s = .next t) : RegisterKept s t := by
  cases i with
  | cellReading c raw ok => exact .event (exec_cellReading c raw ok s) (staysSound_takeReading c _ s) h
  | periodTimerExpiry => exact .event (exec_periodTimerExpiry s) (staysSound_endPeriod s) h
  | warmUpTimerExpiry d => exact .event (exec_warmUpTimerExpiry d s) (staysSound_deckChange d _ _ s) h
  | idleTimerExpiry d => exact .event (exec_idleTimerExpiry d s) (staysSound_deckChange d _ _ s) h
  | stableTimeoutExpiry d => exact .event (exec_stableTimeoutExpiry d s) (staysSound_endCapture d _ s) h
  | loopLevelChange n i b => exact pinEvent_kept rfl h
  | loopDebounceExpiry n i => exact .event (exec_loopDebounceExpiry n i s) (staysSound_loopDebounced n i s) h
  | detectorFaultAsserted n i =>
    by_cases hu : s.up = true
    · exact .event (exec_detectorFaultAsserted_up hu n i) (staysSound_faultAsserted n i s) h
    · exact pinEvent_kept (exec_detectorFaultAsserted_down hu n i) h
  | detectorFaultCleared n i =>
    by_cases hu : s.up = true
    · exact .event (exec_detectorFaultCleared_up hu n i) (staysSound_of_register rfl) h
    · exact pinEvent_kept (exec_detectorFaultCleared_down hu n i) h
  | limitInputChange n i b => exact pinEvent_kept rfl h
  | limitDebounceExpiry n i => exact .event (exec_limitDebounceExpiry n i s) (staysSound_limitDebounced n i s) h
  | travelTimerExpiry n => exact .event (exec_travelTimerExpiry n s) (staysSound_applyLane n _ s) h
  | settleTimerExpiry n => exact .event (exec_settleTimerExpiry n s) (staysSound_applyLane n _ s) h
  | resolutionTimerExpiry n => exact .event (exec_resolutionTimerExpiry n s) (staysSound_applyLane n _ s) h
  | clockSecond =>
    cases h
    split
    · split
      · exact (RegisterKept.of_register (s := s) (t := advanceClock s) rfl).trans (judgeOverstay_kept _)
      · exact .of_register rfl
    · exact .of_register rfl
  | storeWriteDone => exact .event (exec_storeWriteDone s) (staysSound_completeWrite s) h
  | admitVehicle l tag p => exact .closing_request rfl (admitBody_sound l) h
  | depart l tag p => exact .closing_request rfl departBody_sound h
  | recapture l tag p => exact .closing_request rfl recaptureBody_sound h
  | cancel l tag p => exact .closing_request rfl cancelBody_sound h
  | reraise l tag p => exact .closing_request rfl reraiseBody_sound h
  | clearLane l tag p => exact .closing_request rfl clearLaneBody_sound h
  | voidVisit l tag p => exact .closing_request rfl voidBody_sound h
  | reclassify l tag p =>
    cases h
    exact .request l _ tag _ _ s reclassifyBody_kept
  | manualRaise l tag p => exact .closing_request rfl manualRaiseBody_sound h
  | lowerReset l tag p => exact .closing_request rfl lowerResetBody_sound h
  | spotWeigh l tag p => exact .closing_request rfl (spotWeighBody_sound l) h
  | wake l tag p => exact .closing_request rfl wakeBody_sound h
  | zeroDeck l tag p => exact .leaving_request rfl rfl zeroBody_register h
  | zeroCal l tag p calen =>
    exact .leaving_request (s := s) (u := s.withCalen calen) rfl rfl (zeroCalBody_register calen) h
  | serviceEnter l tag p => exact .closing_request rfl serviceEnterBody_sound h
  | serviceLeave l tag p => exact .closing_request rfl serviceLeaveBody_sound h
  | tareWrite l tag p => exact .leaving_request rfl rfl tareWriteBody_register h
  | tareErase l tag p => exact .leaving_request rfl rfl tareEraseBody_register h
  | tareRead l tag p => exact .leaving_request rfl rfl tareReadBody_register h
  | setupWrite l tag p calen =>
    exact .leaving_request (s := s) (u := s.withCalen calen) rfl rfl (setupWriteBody_register calen) h
  | setupRead l tag p calen =>
    exact .leaving_request (s := s) (u := s.withCalen calen) rfl rfl (fun _ _ => rfl) h
  | setYardMode l tag p => exact .closing_request rfl yardModeBody_sound h
  | setClock l tag p =>
    cases h
    exact .request l _ tag _ _ s (fun now u =>
      (RegisterKept.of_register (s := u) (t := { u with clock := ⟨now, true, 0⟩ }) rfl).trans (judgeOverstay_kept _))
  | readClock l tag p => exact .leaving_request rfl rfl (fun _ _ => rfl) h
  | setTicketBase l tag p => exact .leaving_request rfl rfl ticketBaseBody_register h
  | restart l tag p => exact .leaving_request rfl rfl (fun _ _ => rfl) h
  | identify l tag p => exact .leaving_request rfl rfl (fun _ _ => rfl) h
  | readDeck l tag p => exact .leaving_request rfl rfl (fun _ _ => rfl) h
  | readLane l tag p => exact .leaving_request rfl rfl (fun _ _ => rfl) h
  | readVisit l tag p => exact .leaving_request rfl rfl readVisitBody_register h
  | listVisits l tag p => exact .leaving_request rfl rfl (fun _ _ => rfl) h
  | readTicket l tag p => exact .leaving_request rfl rfl readTicketBody_register h
  | slotRead l tag p => exact .leaving_request rfl rfl (slotReadBody_register l) h
  | slotReturn l tag p => exact .leaving_request rfl rfl (slotReturnBody_register l) h
  | slotHalt l tag p => exact .leaving_request rfl rfl (fun _ _ => rfl) h
  | slotResume l tag p => exact .leaving_request rfl rfl (fun _ _ => rfl) h
  | setSubscription l tag p => exact .leaving_request rfl rfl (fun _ _ => rfl) h
  | setJournalRole l tag p => exact .leaving_request rfl rfl (journalRoleBody_register l) h
  | unknownKind l kind tag p => exact .leaving_request rfl rfl (fun _ _ => rfl) h
  | badFrame l why =>
    cases h
    exact .of_register (dropFrame_register l s)
  | frameGapTimeout l =>
    cases h
    exact .of_register (dropFrame_register l s)
  | frameLeadByte l =>
    cases h
    split <;> exact .of_register rfl
  | frameSent l =>
    cases h
    split
    · unfold frameSent
      dsimp only
      split <;> exact .of_register rfl
    · exact .of_register rfl
  | restartBegin straps =>
    cases h
    split
    · have hbegun : RegisterKept s (abandonMarked (beginStart .restart straps s)) :=
        .of_register (abandonMarked_register _)
      exact hbegun.trans (comeUps_kept _)
    · exact .of_register rfl
  | powerOn straps =>
    cases h
    split <;> exact .of_register (abandonWrite_register _)
  | resetPinAssert =>
    cases h
    exact .of_register (abandonWrite_register _)
  | resetPinRelease straps =>
    cases h
    dsimp only
    split <;> exact .of_register rfl
  | storeScanDone =>
    cases h
    split
    · have hscan : RegisterKept s (scanStore s) := .of_register rfl
      exact (hscan.trans (backupCheck_kept _)).trans (comeUps_kept _)
    · exact .of_register rfl
  | mainSupplyLoss =>
    cases h
    split
    · exact .of_register (abandonWrite_register _)
    · exact .of_register rfl
  | backupSupplyFail =>
    cases h
    split <;> exact .of_register rfl

theorem step_registerKept {s t : State} (h : step s = .next t) : RegisterKept s t := by
  unfold step at h
  split at h
  · cases h
    exact .of_register rfl
  · obtain ⟨hsound, hclosing⟩ := exec_registerKept h
    exact ⟨hsound, hclosing⟩

/-- Settles O56: every command moves the register by moves that keep it sound, and the close of an event leaves no
CLOSING yard without a visit. -/
theorem stepsKeepRegisterSound : Obligations.StepsKeepRegisterSound := by
  refine ⟨fun s t hd hb h => ?_, fun s t hc h => (step_registerKept h).closing hc⟩
  obtain ⟨hdistinct, hbound⟩ := (step_registerKept h).sound ⟨hd, hb⟩
  exact ⟨hdistinct, hbound⟩

end Sys2Proof.Machine
end

section
/-! PROOF. The clock and the overstay judgment (R121, R197, R198), and what a request's station is told through its
answer (R174, R185). -/

namespace Sys2Proof.Machine

/-! ### Notices and the answer of a request -/

section
variable {s u : State} {l : LinkId} {code tag : Byte} {x : Notice}

/-- What a link is told while its request is handled, it is still told when the reply has joined. -/
theorem told_answered {m : LinkId} (h : ((s.handling l code tag).link m).told (u.link m) x) (r : Reply) :
    (s.link m).told ((u.setLink l ((u.link l).answer r)).link m) x := by
  by_cases e : m = l
  · subst e
    rw [State.handling, setLink_link_self] at h
    rw [setLink_link_self]
    exact fun ht => answer_keeps _ _ _ (h ht)
  · rw [State.handling, setLink_link_ne _ _ e] at h
    rw [setLink_link_ne _ _ e]
    exact h

theorem tells_answered (h : (s.handling l code tag).tells u x) (r : Reply) :
    s.tells (u.setLink l ((u.link l).answer r)) x := fun m => told_answered (h m) r

end

/-- R178: each of a list of notices offered to every link. -/
theorem told_foldl_offerAll {α : Type} {f : α → Notice} (hf : ∀ a w, f a ≠ .laneStatus w) {xs : List α} {a : α}
    (ha : a ∈ xs) (ks : Vector LinkState 3) (l : LinkId) :
    (ks.get l).told ((xs.foldl (fun ks b => offerAll ks (f b)) ks).get l) (f a) := by
  induction xs generalizing ks with
  | nil => cases ha
  | cons b xs ih =>
    have hone := offersOnly_offerAll ks (f b)
    rcases List.mem_cons.mp ha with rfl | ha
    · exact (offersOnly_foldl _ (fun ks c => offersOnly_offerAll ks (f c)) xs _).told _ l _ (hf a)
        (told_offerAll ks (f a) l (hf a))
    · exact told_of_fixed _ _ _ _ (hone.fixed l).2.1 (hone.fixed l).2.2.1 (ih ha _)

/-! ### The judgment -/

/-- R121: the judgment at the yard time. -/
theorem judgeOverstay_judges (s : State) : s.judgedAt (judgeOverstay s) s.clock.time := by
  refine ⟨rfl, List.length_map _, fun i v hv => ?_⟩
  have hget : (judgeOverstay s).register.visits[i]? =
      some (if v.nowOverstays s.clock.time s.store.yardSetup.maxStay then
        { v with flags := { v.flags with overstay := true } } else v) := by
    unfold judgeOverstay
    dsimp only
    rw [List.getElem?_map, hv]
    rfl
  refine ⟨fun hover => ?_, fun hnot => ?_⟩
  · have hdue := (nowOverstays_iff _ _ v).mpr hover
    rw [if_pos hdue] at hget
    exact ⟨hget, fun l => told_foldl_offerAll (f := fun v : Visit => .visit v.number .overstay)
      (fun _ _ e => by cases e) (List.mem_filter.mpr ⟨List.mem_of_getElem? hv, hdue⟩) s.links l⟩
  · rw [if_neg (fun h => hnot ((nowOverstays_iff _ _ v).mp h))] at hget
    exact hget

/-- R121, R198: the judgment made while a request is handled stands when the reply has joined. -/
theorem judgedAt_answered {s u : State} {l : LinkId} {code tag : Byte} {now : Nat}
    (h : (s.handling l code tag).judgedAt u now) (r : Reply) :
    s.judgedAt (u.setLink l ((u.link l).answer r)) now := by
  obtain ⟨hregister, hlength, hvisits⟩ := h
  refine ⟨hregister, hlength, fun i v hv => ⟨fun hover => ?_, (hvisits i v hv).2⟩⟩
  obtain ⟨hflag, htold⟩ := (hvisits i v hv).1 hover
  exact ⟨hflag, tells_answered htold r⟩

/-! ### The second and SET_CLOCK -/

theorem exec_clockSecond (s : State) : exec .clockSecond s =
    .next (if s.clockRuns then (if s.up then judgeOverstay (advanceClock s) else advanceClock s) else s) := rfl

theorem exec_setClock (l : LinkId) (tag : Byte) {now : Nat} (h : now < 4294967296) (s : State) :
    exec (.setClock l tag (be4 now)) s = .next (request l 0x29 tag officeOnly (some now) setClockBody s) := by
  rw [← wordField_be4 now h]
  rfl

theorem main_of_up {s : State} (h : s.up = true) : s.power.main = true := by
  simp only [State.up, State.taking, Bool.and_eq_true] at h
  exact h.1.1

theorem officeOnly_of_office {r : Role} (h : r = .office) : officeOnly r = true := by rw [h]; rfl

/-- Settles O41: the second counted or not, the time set, and each judged. -/
theorem clockAdvancesAndJudgesOverstay : Obligations.ClockAdvancesAndJudgesOverstay := by
  refine ⟨fun s hu hset ht => ?_, fun s hstays => ?_, fun s l tag now hr ho hn => ?_⟩
  · have hruns : s.clockRuns = true := by simp [State.clockRuns, hset, main_of_up hu, ht]
    refine ⟨judgeOverstay (advanceClock s), ?_, ?_, judgeOverstay_judges (advanceClock s), rfl⟩
    · rw [exec_clockSecond, if_pos hruns, if_pos hu]
    · show (advanceClock s).clock = _
      rw [← hset]
      rfl
  · have hruns : s.clockRuns = false := by
      rcases hstays with h | h <;> simp [State.clockRuns, h]
    rw [exec_clockSecond, hruns]
    rfl
  · obtain ⟨hanswer, hreplied⟩ := request_answer hr 0x29 tag officeOnly now setClockBody (officeOnly_of_office ho)
      (setClockBody now (s.handling l 0x29 tag)) rfl
      (yard_request (yard_judgeOverstay { s.handling l 0x29 tag with clock := ⟨now, true, 0⟩ }) l)
    refine ⟨_, exec_setClock l tag hn s, hreplied, ?_⟩
    rw [hanswer]
    exact ⟨rfl, judgedAt_answered (judgeOverstay_judges { s.handling l 0x29 tag with clock := ⟨now, true, 0⟩ }) _, rfl⟩

end Sys2Proof.Machine
end

section
/-! PROOF. A VISIT capture that completes (R104, R113, R114, R99, R100, R150): the entry weighing that admits, and the exit
weighing that writes the ticket. -/

namespace Sys2Proof.Machine

/-! ### A record written -/

/-- R148, R150: the record with the counter's number is the newest, the oldest makes room in a full ring, and the counter
advances. -/
theorem writeRecord_records (t : Ticket) {s : State} {num : Nat} (h : s.journal.counter = some num) :
    (writeRecord t s).journal.records =
        (if s.journal.records.length < 512 then s.journal.records else s.journal.records.drop 1) ++
          [{ t with number := num }] ∧
      (writeRecord t s).journal.counter = some (if num = 4294967295 then 1 else num + 1) := by
  obtain ⟨_, _, _, hplace⟩ := writeRecord_frame t s
  obtain ⟨hrecords, hcounter, _⟩ := place_spec s.journal num t
  rw [hplace num h]
  exact ⟨hrecords, hcounter⟩

/-- R99, R100: the net of a difference; REVERSED, and none less than 0. -/
theorem net_of_difference {v : Visit} {diff : Int} (h : v.difference = diff) :
    v.net = (if diff < 0 then 0 else diff.toNat) ∧ v.reversed = decide (diff < 0) := by
  unfold Visit.net Visit.reversed
  rw [h]
  refine ⟨?_, rfl⟩
  split
  · rename_i hneg
    exact Int.toNat_of_nonpos (Int.le_of_lt hneg)
  · rfl

/-- R114: a visit released writes its record and is RELEASED with the record's number. -/
theorem releaseVisit_frame (v : Visit) (s : State) :
    releaseVisit v s = { s with
      register := s.register.update v.number (fun _ => v.released s.journal.counter)
      journal := (writeRecord (v.releaseTicket s.clock.time) s).journal
      links := (writeRecord (v.releaseTicket s.clock.time) s).links } := by
  unfold releaseVisit
  dsimp only
  rw [(writeRecord_frame (v.releaseTicket s.clock.time) s).1]

/-- Fills change the places of the links in the journal, and what the links are told. -/
theorem fillAll_records (s : State) :
    (fillAll s).journal.records = s.journal.records ∧ (fillAll s).journal.counter = s.journal.counter := by
  rw [fillAll_frame]
  exact ⟨rfl, rfl⟩

/-! ### Raises asked by the register, at the close of the event -/

theorem raiseIfOccupied_lane (n : LaneId) (c : CauseKind) (s : State) :
    ((s.lane n).deckLoop.occupied = true → ((raiseIfOccupied n c s).lane n).cause = some ⟨c, .pending⟩ ∧
      ((raiseIfOccupied n c s).lane n).count = 0) ∧
      ((s.lane n).deckLoop.occupied = false → raiseIfOccupied n c s = s) := by
  unfold raiseIfOccupied
  refine ⟨fun h => ?_, fun h => if_neg (ne_true_of_eq_false h)⟩
  rw [if_pos h, raiseLane, applyLane_lane_self]
  obtain ⟨_, hcause, hcount, _⟩ := raise_spec (s.lane n) c
  exact ⟨hcause, hcount⟩

/-- The close of an event leaves cause, count and barrier of every lane. -/
theorem finish_lane_arm (m : YardMode) (s : State) (n : LaneId) :
    ((finish m s).lane n).cause = (s.lane n).cause ∧ ((finish m s).lane n).count = (s.lane n).count ∧
      ((finish m s).lane n).barrier = (s.lane n).barrier := by
  obtain ⟨_, w, h⟩ := finish_lane m s n
  rw [h]
  exact ⟨rfl, rfl, rfl⟩

theorem finish_records (m : YardMode) (s : State) :
    (finish m s).journal.records = s.journal.records ∧ (finish m s).journal.counter = s.journal.counter := by
  rw [finish_journal]
  exact ⟨rfl, rfl⟩

/-! ### The sample that completes a capture -/

/-- The weighing that a sample gives a capture (R64). -/
def State.weighed (s : State) (d : DeckId) (p : Capture) (w : CurrentWeight) : Weighing :=
  ⟨d, p.owner.kind, w.reported, s.clock.time, (s.deck d).zeroLimit⟩

/-- R57, R58: the reading that completes a STABLE sample within the limits ends the capture with its weighing. -/
theorem exec_cellReading_done {s : State} {c : ChanId} {raw : BitVec 24} {d : DeckId} {p : Capture} {w : CurrentWeight}
    (hu : s.up = true) (hm : (s.chan c).memberOf d = true) (hs : (s.deck d).state = .active)
    (ha : ∀ j, j ≠ c → (s.chan j).memberOf d = true → (s.chan j).arrival = true) (hp : (s.unit d).cap = some p)
    (hw : ((s.deck d).sample ((s.setChan c ((s.chan c).accept true raw.toInt)).members d)).current = some w)
    (hst : ((s.deck d).sample ((s.setChan c ((s.chan c).accept true raw.toInt)).members d)).stable = true)
    (hover : w.isOver = false) (hunder : w.isUnder = false) (hmin : 20 * (s.deck d).setup.e ≤ w.reported) :
    exec (.cellReading c raw true) s = .next (finish s.register.mode
      (endCapture d (.done (s.weighed d p w)) ((s.setChan c ((s.chan c).accept true raw.toInt)).sampled d))) := by
  rw [exec_cellReading_right hu, takeReading_completes raw.toInt hm (by rw [hs]; rfl) ha,
    examineSample_sampled (s := s.setChan c ((s.chan c).accept true raw.toInt)) _ hp hs hw hst, decidedOutcome, hover,
    hunder, if_neg Bool.false_ne_true, if_neg Bool.false_ne_true, if_neg (fun h => absurd hmin (Int.not_le.mpr h.2))]
  rfl

/-- The state in which the register hears of a capture's end: the unit IDLE, the CAPTURE notice offered (R65). -/
def State.captureEnded (s : State) (d : DeckId) (p : Capture) (o : CapOutcome) : State :=
  { s with units := setAt s.units d ((s.unit d).ended p o), links := offerCapture d p.owner o s.links }

theorem endCapture_of_cap {s : State} {d : DeckId} {p : Capture} (hp : (s.unit d).cap = some p) (o : CapOutcome) :
    endCapture d o s = handOutcome d p.owner o (s.captureEnded d p o) := by
  unfold endCapture
  rw [hp]
  rfl

section
variable {s : State} {d : DeckId} {p : Capture} {v : Visit} (hp : (s.unit d).cap = some p)
  (hv : s.register.find v.number = some v) (hb : s.bound d = some v.number)
include hp hv hb

/-- R104: the outcome of a VISIT_IN capture reaches the WEIGH_IN visit bound to its lane. -/
theorem endCapture_visitIn (ho : p.owner = .visitIn v.number) (hs : v.state = .weighIn) (o : CapOutcome) :
    endCapture d o s = entryOutcome d v o (s.captureEnded d p o) := by
  rw [endCapture_of_cap hp, ho, handOutcome]
  have hfind : (s.captureEnded d p o).register.find v.number = some v := hv
  have hbound : (s.captureEnded d p o).bound d = some v.number := hb
  rw [hfind]
  exact if_pos ⟨hs, hbound⟩

/-- R113: the outcome of a VISIT_OUT capture reaches the WEIGH_OUT visit bound to its lane. -/
theorem endCapture_visitOut (ho : p.owner = .visitOut v.number) (hs : v.state = .weighOut) (o : CapOutcome) :
    endCapture d o s = exitOutcome d v o (s.captureEnded d p o) := by
  rw [endCapture_of_cap hp, ho, handOutcome]
  have hfind : (s.captureEnded d p o).register.find v.number = some v := hv
  have hbound : (s.captureEnded d p o).bound d = some v.number := hb
  rw [hfind]
  exact if_pos ⟨hs, hbound⟩

end

/-! ### The entry weighing -/

/-- R104: what an entry weighing leaves at the close of its event. -/
theorem finish_weighedIn (m : YardMode) {s : State} {d : DeckId} {p : Capture} {v : Visit} (r : Weighing)
    (hp : (s.unit d).cap = some p) (hv : s.register.find v.number = some v) (hb : s.bound d = some v.number)
    (ho : p.owner = .visitIn v.number) (hs : v.state = .weighIn) :
    (finish m (endCapture d (.done r) s)).register = s.register.update v.number (fun x => x.weighedIn r) ∧
      (finish m (endCapture d (.done r) s)).journal.records = s.journal.records ∧
      ((s.lane d).deckLoop.occupied = true →
        ((finish m (endCapture d (.done r) s)).lane d).cause = some ⟨.admitted v.number, .pending⟩ ∧
        ((finish m (endCapture d (.done r) s)).lane d).count = 0) ∧
      ((s.lane d).deckLoop.occupied = false →
        ((finish m (endCapture d (.done r) s)).lane d).cause = (s.lane d).cause ∧
        ((finish m (endCapture d (.done r) s)).lane d).barrier = (s.lane d).barrier) := by
  obtain ⟨hcause, hcount, hbarrier⟩ := finish_lane_arm m (endCapture d (.done r) s) d
  have hend := endCapture_visitIn hp hv hb ho hs (.done r)
  rw [finish_endCapture_register m d (fun e => by cases e) hv, (finish_records m _).1, hcause, hcount, hbarrier, hend,
    entryOutcome]
  generalize hw : { s.captureEnded d p (.done r) with
    register := (s.captureEnded d p (.done r)).register.update v.number (fun x => x.weighedIn r) } = u
  have hlane : u.lane d = s.lane d := by rw [← hw]; rfl
  obtain ⟨hraised, hkept⟩ := raiseIfOccupied_lane d (.admitted v.number) u
  rw [hlane] at hraised hkept
  refine ⟨?_, ?_, hraised, fun h => ?_⟩
  · rw [raiseIfOccupied_register, ← hw]
    rfl
  · rw [(quiet_raiseIfOccupied d _ u).journal, ← hw]
    rfl
  · rw [hkept h, hlane]
    exact ⟨rfl, rfl⟩

/-- Settles O10: the reading completes the capture, whose weighing admits the visit. -/
theorem entryWeighingAdmits : Obligations.EntryWeighingAdmits := by
  intro s c raw d v p w hu hm hs ha hp ho hv hstate hb k hw hst hover hunder hmin r
  have hr : s.weighed d p w = r := by rw [State.weighed, ho]; rfl
  refine ⟨_, exec_cellReading_done hu hm hs ha hp hw hst hover hunder hmin, ?_⟩
  rw [hr]
  obtain ⟨hregister, hrecords, hraised, hkept⟩ := finish_weighedIn s.register.mode r
    (s := (s.setChan c ((s.chan c).accept true raw.toInt)).sampled d) hp hv hb ho hstate
  refine ⟨?_, ?_, hrecords, hraised, hkept⟩
  · rw [hregister]
    exact find_update_self (r := s.register) _ (fun _ h => h) hv
  · rw [State.bound, hregister]
    exact hb

/-! ### The exit weighing -/

/-- R99: the kind and the difference of a plan with an exit weighing, once the second weighing is there. -/
theorem weighedOut_plan {v : Visit} {r : Weighing} {kind : TicketKind} {diff : Int}
    (h : v.tareMode = .weighed ∧ kind = .weighed ∧ (∃ f, v.first = some f ∧
        diff = (if v.direction = .delivery then f.weight - r.weight else r.weight - f.weight)) ∨
      v.tareMode = .stored ∧ v.direction = .collection ∧ v.first = none ∧ kind = .storedTare ∧
        ∃ tare : Nat, v.storedTare = some tare ∧ diff = r.weight - tare) :
    (v.weighedOut r).difference = diff ∧ (if v.tareMode = .stored then TicketKind.storedTare else .weighed) = kind := by
  unfold Visit.difference
  rcases h with ⟨hmode, rfl, f, hf, rfl⟩ | ⟨hmode, hdir, _, rfl, tare, htare, rfl⟩
  · cases hdir : v.direction with
    | delivery => simp [Visit.weighedOut, hmode, hdir, hf, weightOf]
    | collection => simp [Visit.weighedOut, hmode, hdir, hf, weightOf]
  · simp [Visit.weighedOut, hmode, hdir, htare, weightOf, orZero]

/-- R113, R114: what an exit weighing leaves at the close of its event. -/
theorem finish_weighedOut (m : YardMode) {s : State} {d : DeckId} {p : Capture} {v : Visit} {num : Nat} (r : Weighing)
    (hp : (s.unit d).cap = some p) (hv : s.register.find v.number = some v) (hb : s.bound d = some v.number)
    (ho : p.owner = .visitOut v.number) (hs : v.state = .weighOut) (hj : s.journal.counter = some num) :
    (finish m (endCapture d (.done r) s)).register =
        s.register.update v.number (fun _ => (v.weighedOut r).released (some num)) ∧
      (finish m (endCapture d (.done r) s)).journal.records =
        (if s.journal.records.length < 512 then s.journal.records else s.journal.records.drop 1) ++
          [{ (v.weighedOut r).releaseTicket s.clock.time with number := num }] ∧
      (finish m (endCapture d (.done r) s)).journal.counter = some (if num = 4294967295 then 1 else num + 1) ∧
      ((s.lane d).deckLoop.occupied = true →
        ((finish m (endCapture d (.done r) s)).lane d).cause = some ⟨.released v.number, .pending⟩ ∧
        ((finish m (endCapture d (.done r) s)).lane d).count = 0) := by
  obtain ⟨hcause, hcount, _⟩ := finish_lane_arm m (endCapture d (.done r) s) d
  have hend := endCapture_visitOut hp hv hb ho hs (.done r)
  rw [finish_endCapture_register m d (fun e => by cases e) hv, (finish_records m _).1, (finish_records m _).2, hcause,
    hcount, hend, exitOutcome]
  generalize hu : s.captureEnded d p (.done r) = u
  have hcounter : u.journal.counter = some num := by rw [← hu]; exact hj
  have hrecords : u.journal.records = s.journal.records := by rw [← hu]; rfl
  have hclock : u.clock = s.clock := by rw [← hu]; rfl
  have hregister : u.register = s.register := by rw [← hu]; rfl
  have hlane : (releaseVisit (v.weighedOut r) u).lane d = s.lane d := by rw [releaseVisit_frame, ← hu]; rfl
  have hjournal : (releaseVisit (v.weighedOut r) u).journal =
      (writeRecord ((v.weighedOut r).releaseTicket s.clock.time) u).journal := by rw [releaseVisit_frame, hclock]
  obtain ⟨hwritten, hadvanced⟩ := writeRecord_records ((v.weighedOut r).releaseTicket s.clock.time) hcounter
  obtain ⟨hraised, _⟩ := raiseIfOccupied_lane d (.released v.number) (releaseVisit (v.weighedOut r) u)
  rw [(fillAll_records _).1, (fillAll_records _).2, (quiet_raiseIfOccupied d _ _).journal, hjournal, hwritten, hadvanced,
    hrecords, fillAll_register, raiseIfOccupied_register, releaseVisit_register, hregister, hcounter]
  refine ⟨rfl, rfl, rfl, fun h => ?_⟩
  have hfilled : (fillAll (raiseIfOccupied d (.released v.number) (releaseVisit (v.weighedOut r) u))).lane d =
      (raiseIfOccupied d (.released v.number) (releaseVisit (v.weighedOut r) u)).lane d := by rw [fillAll_frame]; rfl
  rw [hfilled]
  exact hraised (hlane ▸ h)

/-- Settles O11: the reading completes the capture, whose weighing releases the visit with its record. -/
theorem exitWeighingWritesTicket : Obligations.ExitWeighingWritesTicket := by
  intro s c raw d v p w num kind diff hu hm hs ha hp ho hv hstate hb hj hplan k hw hst hover hunder hmin flags
  have hr : s.weighed d p w = ⟨d, .visitOut, w.reported, s.clock.time, (s.deck d).zeroLimit⟩ := by
    rw [State.weighed, ho]
    rfl
  refine ⟨_, exec_cellReading_done hu hm hs ha hp hw hst hover hunder hmin, ?_⟩
  obtain ⟨hregister, hrecords, hcounter, hraised⟩ := finish_weighedOut s.register.mode (s.weighed d p w)
    (s := (s.setChan c ((s.chan c).accept true raw.toInt)).sampled d) hp hv hb ho hstate hj
  obtain ⟨hdifference, hkind⟩ := weighedOut_plan (r := s.weighed d p w) hplan
  obtain ⟨hnet, hreversed⟩ := net_of_difference hdifference
  have hticket : ({ (v.weighedOut (s.weighed d p w)).releaseTicket s.clock.time with number := num } : Ticket) =
      { number := num, kind := kind, visit := v.number, plate := v.plate, stream := v.stream
        direction := v.direction, link := v.link, account := v.account
        first := v.first.map (fun f => ⟨f.deck, f.weight, f.time⟩), second := some ⟨d, w.reported, s.clock.time⟩
        storedTare := v.storedTare, net := some (if diff < 0 then 0 else diff.toNat), admitted := v.admitted
        ticketed := s.clock.time, flags := flags, reversed := decide (diff < 0) } := by
    unfold Visit.releaseTicket Visit.ticketOf
    rw [hnet, hreversed, ← hkind]
    rfl
  refine ⟨?_, hcounter, ?_, ?_, hraised⟩
  · rw [← hticket]
    exact hrecords
  · rw [hregister, ← hr]
    exact find_update_self (r := s.register) _ (fun _ _ => rfl) hv
  · rw [State.bound, hregister]
    exact hb

end Sys2Proof.Machine
end

section
/-! PROOF. The checks of ADMIT, DEPART and ZERO in their order (R39, R52, R101, R110, R111, R186): the checks as the rules
list them against those of the bodies, and the first that fails. -/

namespace Sys2Proof.Machine

/-! ### Checks in their order -/

/-- The checks of a rule and those of a body are the same, one by one. -/
def ChecksAgree (rule : List (Prop × Status)) (body : List (Bool × Status)) : Prop :=
  List.Forall₂ (fun p b => (p.1 ↔ b.1 = true) ∧ p.2 = b.2) rule body

theorem checksAgree_cons {p : Prop} {b : Bool} {st : Status} {ps : List (Prop × Status)} {bs : List (Bool × Status)}
    (h : p ↔ b = true) (ht : ChecksAgree ps bs) : ChecksAgree ((p, st) :: ps) ((b, st) :: bs) := .cons ⟨h, rfl⟩ ht

theorem checksAgree_append {ps qs : List (Prop × Status)} {bs cs : List (Bool × Status)} (h : ChecksAgree ps bs)
    (h' : ChecksAgree qs cs) : ChecksAgree (ps ++ qs) (bs ++ cs) := List.rel_append h h'

theorem firstFailure_cons (b : Bool) (st : Status) (bs : List (Bool × Status)) :
    firstFailure ((b, st) :: bs) = if b then firstFailure bs else some st := by
  unfold firstFailure
  cases b <;> rfl

theorem firstFailure_append (bs cs : List (Bool × Status)) :
    firstFailure (bs ++ cs) = (firstFailure bs).or (firstFailure cs) := by
  induction bs with
  | nil => rfl
  | cons b bs ih =>
    obtain ⟨b, st⟩ := b
    rw [List.cons_append, firstFailure_cons, firstFailure_cons, ih]
    cases b <;> rfl

theorem firstFailure_eq_none {bs : List (Bool × Status)} : firstFailure bs = none ↔ ∀ p ∈ bs, p.1 = true := by
  simp [firstFailure]

/-- The first of a rule's checks that fails is the first of the body's. -/
theorem firstFailure_of_agree {ps : List (Prop × Status)} {bs : List (Bool × Status)} (h : ChecksAgree ps bs)
    {a b : List (Prop × Status)} {c : Prop} {st : Status} (e : ps = a ++ (c, st) :: b) (ha : ∀ x ∈ a, x.1)
    (hc : ¬c) : firstFailure bs = some st := by
  induction a generalizing ps bs with
  | nil =>
    subst e
    cases h with
    | @cons _ y _ _ hxy _ =>
      obtain ⟨hiff, rfl⟩ := hxy
      obtain ⟨y, sy⟩ := y
      rw [firstFailure_cons, if_neg (fun hy => hc (hiff.mpr hy))]
  | cons x a ih =>
    subst e
    cases h with
    | @cons _ y _ _ hxy ht =>
      obtain ⟨hiff, _⟩ := hxy
      obtain ⟨y, sy⟩ := y
      rw [firstFailure_cons, if_pos (hiff.mp (ha x (List.mem_cons_self ..)))]
      exact ih ht rfl (fun z hz => ha z (List.mem_cons_of_mem _ hz))

/-- A request whose body meets the rule's checks in their order. -/
theorem refusesInOrder_of_body {α : Type} {s : State} {i : Instr} {l : LinkId} {code tag : Byte}
    {allowed : Role → Bool} {x : α} {body : α → State → Answer} {ps : List (Prop × Status)}
    {bs : List (Bool × Status)} (h : s.ready l) (hrole : allowed (s.link l).role = true)
    (he : exec i s = .next (request l code tag allowed (some x) body s)) (hagree : ChecksAgree ps bs)
    (hbody : ∀ st, firstFailure bs = some st → body x (s.handling l code tag) = refuse st (s.handling l code tag)) :
    s.refusesInOrder i l tag code ps := by
  intro a b c st e ha hc
  refine ⟨_, he, request_refuse h code tag allowed (some x) body st ?_⟩
  rw [request_body h code tag allowed x body hrole]
  exact hbody st (firstFailure_of_agree hagree e ha hc)

theorem checked_refuses {bs : List (Bool × Status)} {s : State} {go : Answer} {st : Status}
    (h : firstFailure bs = some st) : checked bs s go = refuse st s := (checked_spec bs s go).2 st h

theorem checked_passes {bs : List (Bool × Status)} {s : State} {go : Answer} (h : firstFailure bs = none) :
    checked bs s go = go := (checked_spec bs s go).1 (firstFailure_eq_none.mp h)

/-! ### The checks of the capture unit -/

/-- R52: what is left of the unit's checks where the DECK loop reads occupied. -/
def unitChecks (needed : Bool) (s : State) (d : DeckId) : List (Bool × Status) :=
  [(!needed || (s.deck d).state.capturable, .deckNotReady),
   (!needed || (s.unit d).cap.all (fun c => c.owner.kind == .spot), .deckBusy)]

theorem captureCheck_eq {needed : Bool} {s : State} {d : DeckId} (h : (s.lane d).deckLoop.occupied = true) :
    captureCheck needed s d = firstFailure (unitChecks needed s d) := by
  unfold captureCheck unitChecks visitRefusal
  rw [firstFailure_cons, firstFailure_cons, h]
  cases needed with
  | false => rfl
  | true =>
    cases (s.deck d).state.capturable with
    | false => rfl
    | true =>
      cases (s.unit d).cap with
      | none => rfl
      | some c => cases hk : c.owner.kind <;> simp [hk, firstFailure]

theorem unitChecks_agree {needed : Bool} {weighs : Prop} (h : needed = true ↔ weighs) (s : State) (d : DeckId) :
    ChecksAgree
      [(weighs → (s.deck d).state.capturable = true, .deckNotReady),
       (weighs → ∀ c, (s.unit d).cap = some c → c.owner.kind = .spot, .deckBusy)] (unitChecks needed s d) := by
  rw [← h]
  refine checksAgree_cons (by cases needed <;> simp) (checksAgree_cons ?_ .nil)
  cases (s.unit d).cap <;> cases needed <;> simp

/-! ### ADMIT -/

theorem tareUsable_iff (time : Nat) (e : TareEntry) :
    e.usable time = true ↔ e.expiry = 0 ∨ time / 86400 ≤ e.expiry := by
  rw [TareEntry.usable, Bool.or_eq_true, beq_iff_eq, decide_eq_true_eq]
  rfl

/-- R102: the entry an ADMIT can use is the VALID one of its registration, unexpired, where STORED is asked. -/
theorem usableTare_eq_some {s : State} {f : AdmitFields} {e : TareEntry} :
    usableTare s f = some e ↔ f.tareMode = .stored ∧ ∃ i, s.store.lookup f.plate = some (i, e) ∧
      (e.expiry = 0 ∨ s.clock.time / 86400 ≤ e.expiry) := by
  unfold usableTare
  by_cases hmode : f.tareMode = .stored
  · rw [if_pos hmode]
    cases hlookup : s.store.lookup f.plate with
    | none => simp
    | some entry =>
      obtain ⟨i, e'⟩ := entry
      by_cases hu : e'.usable s.clock.time = true
      · simp only [hu, if_true, Option.some.injEq, Prod.mk.injEq, hmode, true_and]
        refine ⟨?_, ?_⟩
        · rintro rfl
          exact ⟨i, ⟨rfl, rfl⟩, (tareUsable_iff _ _).mp hu⟩
        · rintro ⟨_, ⟨_, rfl⟩, _⟩
          rfl
      · simp only [hu, if_false, Option.some.injEq, Prod.mk.injEq, hmode, true_and, reduceCtorEq, false_iff]
        rintro ⟨_, ⟨_, rfl⟩, hok⟩
        exact hu ((tareUsable_iff _ _).mpr hok)
  · simp [hmode]

/-- R99: the plan of an ADMIT needs no entry weighing where a COLLECTION uses a stored tare. -/
theorem admitVisit_needsEntry (s : State) (l : LinkId) (f : AdmitFields) :
    (admitVisit s l f).needsEntry = true ↔ ¬(f.tareMode = .stored ∧ f.direction = .collection ∧
      ∃ i e, s.store.lookup f.plate = some (i, e) ∧ (e.expiry = 0 ∨ s.clock.time / 86400 ≤ e.expiry)) := by
  have hplan : (admitVisit s l f).needsEntry = (admitForm s l f).needsEntry := by
    rw [admitVisit_eq]
    split <;> rfl
  have hstored : (usableTare s f).isSome = true ↔ f.tareMode = .stored ∧
      ∃ i e, s.store.lookup f.plate = some (i, e) ∧ (e.expiry = 0 ∨ s.clock.time / 86400 ≤ e.expiry) := by
    rw [Option.isSome_iff_exists]
    simp only [usableTare_eq_some]
    exact ⟨fun ⟨e, hm, i, h⟩ => ⟨hm, i, e, h⟩, fun ⟨hm, i, e, h⟩ => ⟨e, hm, i, h⟩⟩
  have hform : (admitForm s l f).needsEntry = true ↔ ¬((usableTare s f).isSome = true ∧ f.direction = .collection) := by
    unfold Visit.needsEntry admitForm
    dsimp only
    split <;> simp [*]
  rw [hplan, hform, hstored]
  exact not_congr ⟨fun ⟨⟨hm, h⟩, hd⟩ => ⟨hm, hd, h⟩, fun ⟨hm, hd, h⟩ => ⟨⟨hm, h⟩, hd⟩⟩

theorem exec_admitVehicle {p : List Byte} {f : AdmitFields} (hf : admitFields? p = some f) (l : LinkId) (tag : Byte)
    (s : State) :
    exec (.admitVehicle l tag p) s = .next (request l 0x01 tag gateOffice (some f) (admitBody l) s) := by
  rw [← hf]
  rfl

/-- R101: the checks before the unit's. -/
theorem admitChecks_agree (s : State) (f : AdmitFields) {v : Visit} {weighs : Prop} (h : v.needsEntry = true ↔ weighs) :
    ChecksAgree
      [(s.disabled f.lane = false, .laneDisabled), ((s.lane f.lane).setup.direction = .entry, .wrongLane),
       (s.register.mode ≠ .closed, .yardClosed), (s.register.mode ≠ .closing, .yardClosing),
       (s.bound f.lane = none, .lanePending), ((s.lane f.lane).deckLoop.occupied = true, .noVehicle),
       (∀ x ∈ s.register.visits, x.plate ≠ f.plate, .duplicate), (s.register.visits.length < 96, .registerFull),
       (s.journal.held + s.register.unreleased + 1 ≤ 512, .journalFull),
       ((s.deck f.lane).service = false ∧ (weighs → (s.deck f.lane).state ≠ .fault), .deckNotReady)]
      (admitChecks s f v) := by
  rw [← h]
  refine checksAgree_cons (by simp) <| checksAgree_cons (by simp) <| checksAgree_cons (by simp) <|
    checksAgree_cons (by simp) <| checksAgree_cons (by simp) <| checksAgree_cons Iff.rfl <|
    checksAgree_cons (by simp) <| checksAgree_cons (by simp) <| checksAgree_cons (by simp [State.headroom]) <|
    checksAgree_cons ?_ .nil
  cases v.needsEntry <;> simp

theorem admitBody_refuses {l : LinkId} {f : AdmitFields} {s : State} {st : Status}
    (h : firstFailure (admitChecks s f (admitVisit s l f) ++
      unitChecks (admitVisit s l f).needsEntry s f.lane) = some st) :
    admitBody l f s = refuse st s := by
  rw [firstFailure_append] at h
  unfold admitBody
  dsimp only
  cases hlane : firstFailure (admitChecks s f (admitVisit s l f)) with
  | some st' =>
    rw [hlane] at h
    cases h
    exact checked_refuses hlane
  | none =>
    rw [hlane, Option.none_or] at h
    have hloop := firstFailure_eq_none.mp hlane ((s.lane f.lane).deckLoop.occupied, .noVehicle) (by simp [admitChecks])
    rw [checked_passes hlane, captureCheck_eq hloop, h]

/-! ### DEPART -/

theorem exec_depart {p : List Byte} {f : DepartFields} (hf : departFields? p = some f) (l : LinkId) (tag : Byte)
    (s : State) : exec (.depart l tag p) s = .next (request l 0x02 tag everyRole (some f) departBody s) := by
  rw [← hf]
  rfl

theorem needsExit_iff (v : Visit) : v.needsExit = true ↔ ¬(v.tareMode = .stored ∧ v.direction = .delivery) := by
  simp [Visit.needsExit, imp_iff_not_or]

/-- R110: the checks on the lane, and whether the register holds the visit. -/
def departKnownChecks (s : State) (f : DepartFields) : List (Bool × Status) :=
  departLaneChecks s f.lane ++ [((s.register.find f.visit).isSome, .noSuchVisit)]

theorem departKnownChecks_agree (s : State) (f : DepartFields) :
    ChecksAgree
      [(s.disabled f.lane = false, .laneDisabled), ((s.lane f.lane).setup.direction = .exit, .wrongLane),
       (s.register.mode ≠ .closed, .yardClosed), (s.bound f.lane = none, .lanePending),
       ((s.lane f.lane).deckLoop.occupied = true, .noVehicle), (s.register.find f.visit ≠ none, .noSuchVisit)]
      (departKnownChecks s f) :=
  checksAgree_cons (by simp) <| checksAgree_cons (by simp) <| checksAgree_cons (by simp) <|
    checksAgree_cons (by simp) <| checksAgree_cons Iff.rfl <| checksAgree_cons Option.isSome_iff_ne_none.symm .nil

theorem departVisitChecks_agree (s : State) (f : DepartFields) {v : Visit} {weighs : Prop}
    (h : v.needsExit = true ↔ weighs) :
    ChecksAgree
      [(v.state = .onSite, .wrongState), (f.plate = none ∨ f.plate = some v.plate, .mismatch),
       ((s.deck f.lane).service = false ∧ (weighs → (s.deck f.lane).state ≠ .fault), .deckNotReady)]
      (departVisitChecks s f v) := by
  rw [← h]
  refine checksAgree_cons (by simp) <| checksAgree_cons ?_ <| checksAgree_cons ?_ .nil
  · cases f.plate <;> simp
  · cases v.needsExit <;> simp

theorem departBody_unknown {f : DepartFields} {s : State} {st : Status}
    (h : firstFailure (departKnownChecks s f) = some st) : departBody f s = refuse st s := by
  rw [departKnownChecks, firstFailure_append] at h
  unfold departBody
  cases hlane : firstFailure (departLaneChecks s f.lane) with
  | some st' =>
    rw [hlane] at h
    cases h
    exact checked_refuses hlane
  | none =>
    rw [hlane, Option.none_or, firstFailure_cons] at h
    rw [checked_passes hlane]
    cases hfind : s.register.find f.visit with
    | none =>
      rw [hfind] at h
      cases h
      rfl
    | some v =>
      rw [hfind] at h
      cases h

theorem departBody_refuses {f : DepartFields} {s : State} {v : Visit} {st : Status}
    (hv : s.register.find f.visit = some v)
    (h : firstFailure (departKnownChecks s f ++
      (departVisitChecks s f v ++ unitChecks v.needsExit s f.lane)) = some st) :
    departBody f s = refuse st s := by
  rw [firstFailure_append] at h
  cases hknown : firstFailure (departKnownChecks s f) with
  | some st' =>
    rw [hknown] at h
    cases h
    exact departBody_unknown hknown
  | none =>
    rw [hknown, Option.none_or, firstFailure_append] at h
    have hall := firstFailure_eq_none.mp hknown
    have hlane : firstFailure (departLaneChecks s f.lane) = none :=
      firstFailure_eq_none.mpr (fun p hp => hall p (List.mem_append_left _ hp))
    have hloop := hall ((s.lane f.lane).deckLoop.occupied, .noVehicle) (by simp [departKnownChecks, departLaneChecks])
    unfold departBody
    rw [checked_passes hlane, hv]
    dsimp only
    cases hvisit : firstFailure (departVisitChecks s f v) with
    | some st' =>
      rw [hvisit] at h
      cases h
      exact checked_refuses hvisit
    | none =>
      rw [hvisit, Option.none_or] at h
      rw [checked_passes hvisit, captureCheck_eq hloop, h]

/-! ### ZERO -/

theorem zeroBody_agree (s : State) (d : DeckId) :
    ChecksAgree
      [((s.deck d).state = .active ∨ (s.deck d).state = .service, .deckNotReady),
       ((s.deck d).zeroCal = [], .wrongState), ((s.unit d).cap = none, .deckBusy),
       ((s.lane d).deckLoop.occupied = false, .zeroRange),
       ((s.deck d).stable = true ∧ (s.deck d).current.isSome = true, .unstable),
       (∃ w, (s.deck d).current = some w ∧ (w.a.natAbs : Int) ≤ (s.deck d).setup.max * 20, .zeroRange)]
      [((s.deck d).state.zeroable, .deckNotReady), ((s.deck d).zeroCal.isEmpty, .wrongState),
       (!(s.unit d).busy, .deckBusy), (!(s.lane d).deckLoop.occupied, .zeroRange),
       ((s.deck d).isSteady, .unstable), ((s.deck d).zeroInRange, .zeroRange)] := by
  refine checksAgree_cons ?_ <| checksAgree_cons (by simp) <| checksAgree_cons (by simp [CaptureUnit.busy]) <|
    checksAgree_cons (by simp) <| checksAgree_cons (by simp [Deck.isSteady]) <| checksAgree_cons ?_ .nil
  · cases (s.deck d).state <;> simp [DeckState.zeroable]
  · unfold Deck.zeroInRange DeckSetup.zeroLimit
    cases (s.deck d).current <;> simp

/-- Settles O30: the rule's checks are the body's, and the first that fails refuses. -/
theorem visitChecksRefuseInOrder : Obligations.VisitChecksRefuseInOrder := by
  refine ⟨fun s l tag p f hr hrole hf => ?_, fun s l tag p f hr hf => ⟨?_, fun v hv => ?_⟩, fun s l tag d hr hrole => ?_⟩
  · have hneeds := admitVisit_needsEntry s l f
    exact refusesInOrder_of_body hr hrole (exec_admitVehicle hf l tag s)
      (checksAgree_append (admitChecks_agree s f hneeds) (unitChecks_agree hneeds s f.lane))
      (fun st h => admitBody_refuses h)
  · exact refusesInOrder_of_body hr (everyRole_of_enabled hr.2.1) (exec_depart hf l tag s)
      (departKnownChecks_agree s f) (fun st h => departBody_unknown h)
  · have hneeds := needsExit_iff v
    exact refusesInOrder_of_body hr (everyRole_of_enabled hr.2.1) (exec_depart hf l tag s)
      (checksAgree_append (departKnownChecks_agree s f)
        (checksAgree_append (departVisitChecks_agree s f hneeds) (unitChecks_agree hneeds s f.lane)))
      (fun st h => departBody_refuses hv h)
  · exact refusesInOrder_of_body hr hrole (exec_zeroDeck l tag d s) (zeroBody_agree s d)
      (fun st h => checked_refuses h)

end Sys2Proof.Machine
end

section
/-! PROOF. An ADMIT that passes its checks (R101 to R103, R52, R55, R62, R79, R95, R98): the visit that waits for its entry
weighing, and the one admitted at once on a stored tare. -/

namespace Sys2Proof.Machine

/-! ### A request that closes an event -/

/-- Blocks of the yard that are the same in two states. -/
structure State.SameYard (s t : State) : Prop where
  decks : t.decks = s.decks
  units : t.units = s.units
  lanes : t.lanes = s.lanes
  register : t.register = s.register
  journal : t.journal = s.journal

section
variable {s t : State} (h : s.SameYard t)
include h

theorem State.SameYard.deck (d : DeckId) : t.deck d = s.deck d := congrArg (Vector.get · d) h.decks

theorem State.SameYard.unit (d : DeckId) : t.unit d = s.unit d := congrArg (Vector.get · d) h.units

theorem State.SameYard.lane (n : LaneId) : t.lane n = s.lane n := congrArg (Vector.get · n) h.lanes

theorem State.SameYard.bound (n : LaneId) : t.bound n = s.register.bindings.get n :=
  congrArg (fun r : Register => r.bindings.get n) h.register

theorem State.SameYard.records : t.journal.records = s.journal.records := congrArg Journal.records h.journal

theorem State.SameYard.counter : t.journal.counter = s.journal.counter := congrArg Journal.counter h.journal

end

section
variable {α : Type} {l : LinkId} {s u : State} {code tag : Byte} {allowed : Role → Bool} {x : α}
  {body : α → State → Answer} {st : Status} {data : List Byte}

/-- A request that closes an event: it is answered, leaves the closed event but for its link, and what was told in the
event stays told. -/
theorem request_closes (h : s.ready l) (ha : allowed (s.link l).role = true) (hu : YardOnly (s.handling l code tag) u)
    (hb : body x (s.handling l code tag) = taken (s.handling l code tag) u st data) :
    ∃ t, request l code tag allowed (some x) body s = t ∧ (finish s.register.mode u).SameYard t ∧
      t.replied l tag code st data ∧
      ∀ n m, ((s.handling l code tag).link m).told ((finish s.register.mode u).link m) n →
        (s.link m).told (t.link m) n := by
  have hlink := yard_request (yard_taken (s.handling l code tag) u st data hu) l
  obtain ⟨hanswer, hreplied⟩ := request_answer h code tag allowed x body ha _ hb hlink
  refine ⟨_, hanswer, ⟨rfl, rfl, rfl, rfl, rfl⟩, hanswer ▸ hreplied, fun n m htold => ?_⟩
  exact told_answered htold _

end

/-- What a link was told in an event's work it has still been told at its close. -/
theorem told_finish {s u : State} {x : Notice} (m : YardMode) (hx : ∀ w, x ≠ .laneStatus w) {l : LinkId}
    (h : (s.link l).told (u.link l) x) : (s.link l).told ((finish m u).link l) x :=
  (yard_finish m u).links.told _ l x hx h

/-! ### A capture started for a visit -/

/-- R62: a waiting SPOT ends PREEMPTED, and the new capture takes its place. -/
theorem startCapture_eq (d : DeckId) (owner : CapOwner) (s : State) :
    startCapture d owner s = wakeForRequest d ((endCapture d (.failed .preempted) s).capturing d owner) := rfl

/-- R52, R55: the unit after an accepted request. -/
theorem startCapture_unit (d : DeckId) (owner : CapOwner) (s : State) :
    (startCapture d owner s).unit d = { (endCapture d (.failed .preempted) s).unit d with
      cap := some ⟨owner, s.clock.time, firstTimeout s d⟩ } := by
  obtain ⟨_, hdecks, _⟩ := endCapture_frame d (.failed .preempted) s
  have hclock := (yard_endCapture d (.failed .preempted) s).clock
  have htimeout : firstTimeout (endCapture d (.failed .preempted) s) d = firstTimeout s d := by
    unfold firstTimeout State.deck
    rw [hdecks, hclock]
  rw [startCapture_eq]
  unfold State.unit
  rw [(wakeForRequest_frame d _).1, State.capturing, setUnit_units, get_setAt_self, hclock, htimeout]
  rfl

/-- R62, R67: the result that a preempted SPOT leaves with the unit. -/
theorem startCapture_lastSpot {d : DeckId} {s : State} {c : Capture} {lk : LinkId} (hc : (s.unit d).cap = some c)
    (ho : c.owner = .spot lk) (owner : CapOwner) :
    ((startCapture d owner s).unit d).lastSpot = some ⟨lk, c.start, .failed .preempted⟩ := by
  obtain ⟨_, _, _, _, _, _, _, hended⟩ := endCapture_frame d (.failed .preempted) s
  rw [startCapture_unit, hended c hc]
  exact (ended_lastSpot (s.unit d) c _).2 lk ho

/-- R62, R66: the link of a preempted SPOT is told. -/
theorem startCapture_told {d : DeckId} {s : State} {c : Capture} {lk : LinkId} (hc : (s.unit d).cap = some c)
    (ho : c.owner = .spot lk) (owner : CapOwner) :
    (s.link lk).told ((startCapture d owner s).link lk) (.capture d (.spot lk) (.failed .preempted)) := by
  have htold := (endCapture_told d (.failed .preempted) s c hc).2 lk ho
  rw [ho] at htold
  have hlater : YardOnly (endCapture d (.failed .preempted) s) (startCapture d owner s) :=
    (yard_setUnit _ d _).trans (yard_wakeForRequest d _)
  exact hlater.links.told _ lk _ (fun w e => by cases e) htold

/-- R44: the deck after an accepted request. -/
theorem startCapture_deck {d : DeckId} {s : State} (owner : CapOwner) (h : (s.deck d).state.capturable = true)
    (ha : (s.deck d).state ≠ .active) : ((startCapture d owner s).deck d).state = .warming ∧
      ((startCapture d owner s).deck d).wakeCause = .request := by
  obtain ⟨_, hdecks, _⟩ := endCapture_frame d (.failed .preempted) s
  have hdeck : ((endCapture d (.failed .preempted) s).capturing d owner).deck d = s.deck d :=
    congrArg (Vector.get · d) hdecks
  obtain ⟨_, hwakes⟩ := wakeForRequest_deck (d := d) (s := (endCapture d (.failed .preempted) s).capturing d owner)
    (hdeck ▸ h)
  exact hwakes (hdeck ▸ ha)

/-- The capture and the deck of an accepted VISIT request stand at the close of its event. -/
theorem finish_deck_waking (m : YardMode) {u : State} {d : DeckId} (hc : u.closingHolds) :
    ((finish m u).deck d).state = (u.deck d).state ∧ ((finish m u).deck d).wakeCause = (u.deck d).wakeCause := by
  obtain ⟨hstate, hcause, _⟩ := judgedFrom_state (finish_judged m d hc)
  exact ⟨hstate, hcause⟩

theorem finish_unit (m : YardMode) {u : State} (d : DeckId) (hc : u.closingHolds) :
    (finish m u).unit d = u.unit d := by
  obtain ⟨_, _, hunits, _⟩ := finish_frame m u hc
  exact congrArg (Vector.get · d) hunits

theorem finish_register_kept (m : YardMode) {u : State} (hc : u.closingHolds) :
    (finish m u).register = u.register := by
  obtain ⟨_, _, _, hregister, _⟩ := finish_frame m u hc
  exact hregister

/-! ### The checks passed -/

theorem firstFailure_none_of_agree {ps : List (Prop × Status)} {bs : List (Bool × Status)} (h : ChecksAgree ps bs)
    (hp : ∀ x ∈ ps, x.1) : firstFailure bs = none := by
  induction h with
  | nil => rfl
  | @cons p b ps bs hpb _ ih =>
    obtain ⟨b, st⟩ := b
    rw [firstFailure_cons, if_pos (hpb.1.mp (hp p (List.mem_cons_self ..)))]
    exact ih (fun x hx => hp x (List.mem_cons_of_mem _ hx))

/-- What an ADMIT finds where R101's checks 1 to 9 pass in an OPEN yard, and no mark of service stands on the deck. -/
structure State.admits (s : State) (f : AdmitFields) : Prop where
  enabled : s.disabled f.lane = false
  direction : (s.lane f.lane).setup.direction = .entry
  opened : s.register.mode = .opened
  free : s.bound f.lane = none
  occupied : (s.lane f.lane).deckLoop.occupied = true
  plates : ∀ x ∈ s.register.visits, x.plate ≠ f.plate
  room : s.register.visits.length < 96
  headroom : s.journal.held + s.register.unreleased + 1 ≤ 512
  service : (s.deck f.lane).service = false

theorem admitChecks_pass {s : State} {f : AdmitFields} (h : s.admits f) {v : Visit}
    (hdeck : v.needsEntry = true → (s.deck f.lane).state ≠ .fault) : firstFailure (admitChecks s f v) = none := by
  refine firstFailure_none_of_agree (admitChecks_agree s f Iff.rfl) ?_
  simp only [List.forall_mem_cons]
  exact ⟨h.enabled, h.direction, by rw [h.opened]; decide, by rw [h.opened]; decide, h.free, h.occupied, h.plates, h.room,
    h.headroom, ⟨h.service, hdeck⟩, fun x hx => by cases hx⟩

section
variable {s : State} {l : LinkId} {f : AdmitFields}

theorem admitVisit_weighed (h : (admitVisit s l f).needsEntry = true) : admitVisit s l f = admitForm s l f := by
  rw [admitVisit_eq] at h ⊢
  split
  · rfl
  · rename_i hno
    rw [if_neg hno] at h
    exact absurd h hno

theorem admitVisit_stored (h : ¬(admitVisit s l f).needsEntry = true) :
    admitVisit s l f = { admitForm s l f with state := .entering, capMark := false } := by
  rw [admitVisit_eq] at h ⊢
  split
  · rename_i hyes
    rw [if_pos hyes] at h
    exact absurd hyes h
  · rfl

theorem admitBody_waits (h : s.admits f) (hneeds : (admitVisit s l f).needsEntry = true)
    (hcap : (s.deck f.lane).state.capturable = true) (hspot : ∀ c, (s.unit f.lane).cap = some c → c.owner.kind = .spot) :
    admitBody l f s = taken s (appendVisit f.lane (admitVisit s l f)
      (startCapture f.lane (.visitIn (admitVisit s l f).number) s)) .accepted (be2 (admitVisit s l f).number) := by
  have hfault : (s.deck f.lane).state ≠ .fault := by
    intro e
    rw [e] at hcap
    cases hcap
  unfold admitBody
  dsimp only
  rw [checked_passes (admitChecks_pass h (fun _ => hfault)), captureCheck, if_pos hneeds, if_pos hneeds,
    visitRefusal_eq_none.mpr ⟨hcap, h.occupied, hspot⟩]

theorem admitBody_enters (h : s.admits f) (hneeds : ¬(admitVisit s l f).needsEntry = true) :
    admitBody l f s = taken s (raiseLane f.lane (.admitted (admitVisit s l f).number)
      (appendVisit f.lane (admitVisit s l f) s)) .ok (be2 (admitVisit s l f).number) := by
  unfold admitBody
  dsimp only
  rw [checked_passes (admitChecks_pass h (fun e => absurd e hneeds)), captureCheck, if_neg hneeds, if_neg hneeds]

/-! ### The visit appended -/

theorem appendVisit_told (n : LaneId) (v : Visit) (u : State) : u.tells (appendVisit n v u) (.visit v.number .admitted) :=
  fun m => told_offerAll u.links _ m (fun w e => by cases e)

/-- R102: the form of an ADMIT with a usable tare, and without one. -/
theorem admitForm_tare {e : TareEntry} (h : usableTare s f = some e) :
    (admitForm s l f).tareMode = .stored ∧ (admitForm s l f).storedTare = some e.tare ∧
      (admitForm s l f).flags.tareFallback = false ∧
      (admitForm s l f).account = (match f.account with | some a => some a | none => e.account) := by
  refine ⟨?_, ?_, ?_, ?_⟩
  · simp [admitForm, h]
  · simp [admitForm, h]
  · simp [admitForm, h]
  · simp only [admitForm, h, admitAccount]
    cases f.account <;> rfl

theorem admitForm_noTare (h : usableTare s f = none) :
    (admitForm s l f).tareMode = .weighed ∧ (admitForm s l f).storedTare = none ∧
      (admitForm s l f).account = f.account ∧ ((admitForm s l f).flags.tareFallback = true ↔ f.tareMode = .stored) := by
  refine ⟨?_, ?_, ?_, ?_⟩
  · simp [admitForm, h]
  · simp [admitForm, h]
  · simp only [admitForm, h, admitAccount]
    cases f.account <;> rfl
  · simp [admitForm, h]

end

/-! ### A visit that waits for its entry weighing -/

/-- R103: the work of an ADMIT that needs an entry weighing: the capture waits, then the visit is appended and bound. -/
def State.admitting (s : State) (l : LinkId) (f : AdmitFields) : State :=
  appendVisit f.lane (admitForm s l f) (startCapture f.lane (.visitIn (admitForm s l f).number) s)

section
variable {s : State} {l : LinkId} {f : AdmitFields}

theorem yard_admitting : YardOnly s (s.admitting l f) :=
  (yard_startCapture f.lane _ s).trans (quiet_appendVisit f.lane _ _).yard

theorem admitting_closingHolds : (s.admitting l f).closingHolds := by
  unfold State.closingHolds State.admitting appendVisit
  simp [Register.bind]

section
variable (hspot : ∀ c, (s.unit f.lane).cap = some c → c.owner.kind = .spot)
include hspot

/-- R95, R98, R103: the register that the ADMIT leaves. -/
theorem finish_admitting_register (m : YardMode) :
    (finish m (s.admitting l f)).register =
      Register.bind { s.register with visits := s.register.visits ++ [admitForm s l f]
                                      counter := nextVisit s.register.newNumber } f.lane s.register.newNumber := by
  rw [finish_register_kept m admitting_closingHolds]
  unfold State.admitting appendVisit
  dsimp only
  rw [startCapture_register hspot]
  rfl

end

/-- R52, R55: the capture that waits. -/
theorem finish_admitting_unit (m : YardMode) :
    (finish m (s.admitting l f)).unit f.lane = { (endCapture f.lane (.failed .preempted) s).unit f.lane with
      cap := some ⟨.visitIn s.register.newNumber, s.clock.time, firstTimeout s f.lane⟩ } :=
  (finish_unit m f.lane admitting_closingHolds).trans (startCapture_unit f.lane _ s)

/-- R44: the deck that is woken. -/
theorem finish_admitting_deck (m : YardMode) (hcap : (s.deck f.lane).state.capturable = true)
    (ha : (s.deck f.lane).state ≠ .active) :
    ((finish m (s.admitting l f)).deck f.lane).state = .warming ∧
      ((finish m (s.admitting l f)).deck f.lane).wakeCause = .request := by
  obtain ⟨hstate, hcause⟩ := finish_deck_waking m (d := f.lane) (admitting_closingHolds (s := s) (l := l) (f := f))
  obtain ⟨hwarming, hrequest⟩ := startCapture_deck (.visitIn (admitForm s l f).number) hcap ha
  exact ⟨hstate.trans hwarming, hcause.trans hrequest⟩

/-- R62, R66, R103: who is told. -/
theorem finish_admitting_told (m : YardMode) :
    s.tells (finish m (s.admitting l f)) (.visit s.register.newNumber .admitted) ∧
      ∀ c lk, (s.unit f.lane).cap = some c → c.owner = .spot lk →
        (s.link lk).told ((finish m (s.admitting l f)).link lk) (.capture f.lane (.spot lk) (.failed .preempted)) := by
  refine ⟨tells_finish m (fun w e => by cases e) (tells_of_yard (yard_startCapture f.lane _ s)
    (appendVisit_told f.lane (admitForm s l f) _)), fun c lk hc ho => ?_⟩
  refine told_finish m (fun w e => by cases e) ?_
  exact (quiet_appendVisit f.lane (admitForm s l f) _).yard.links.told _ lk _ (fun w e => by cases e)
    (startCapture_told hc ho _)

end

/-- Settles O31: the checks pass, and the visit appended, its capture and the woken deck stand at the close of the
event. -/
theorem admitStartsEntryWeighing : Obligations.AdmitStartsEntryWeighing := by
  intro s l tag p f hr hrole hf h1 h2 h3 h4 h5 h6 h7 h8 h9 hcap hspot hplan stored
  have hneeds : (admitVisit s l f).needsEntry = true := by
    rw [admitVisit_needsEntry]
    rintro ⟨hmode, hdir, i, e, hlookup, husable⟩
    rcases hplan with hw | hd | hnone
    · exact absurd (hmode.symm.trans hw) (by decide)
    · exact absurd (hdir.symm.trans hd) (by decide)
    · obtain ⟨hexpires, hpast⟩ := hnone i e hlookup
      omega
  have hbody := admitBody_waits (s := s.handling l 0x01 tag) (l := l) (f := f) ⟨h1, h2, h3, h4, h5, h6, h7, h8, h9⟩
    hneeds hcap hspot
  rw [admitVisit_weighed (s := s.handling l 0x01 tag) hneeds] at hbody
  obtain ⟨t, hrequest, ht, hreplied, htold⟩ := request_closes (u := (s.handling l 0x01 tag).admitting l f) hr hrole
    yard_admitting hbody
  have hregister : t.register = _ := ht.register.trans
    (finish_admitting_register (s := s.handling l 0x01 tag) (l := l) hspot s.register.mode)
  have hunit : t.unit f.lane = _ := (ht.unit f.lane).trans
    (finish_admitting_unit (s := s.handling l 0x01 tag) (l := l) s.register.mode)
  obtain ⟨hadmitted, hpreempted⟩ := finish_admitting_told (s := s.handling l 0x01 tag) (l := l) (f := f) s.register.mode
  refine ⟨t, admitForm s l f, hrequest ▸ exec_admitVehicle hf l tag s, hreplied, ?_, rfl, rfl, rfl, rfl, rfl, rfl, rfl,
    rfl, rfl, rfl, rfl, rfl, fun i e hmode hlookup husable => ?_, fun hno => ?_, ?_, ?_, ?_, fun ha => ?_,
    fun m => htold _ m (hadmitted m), fun c lk hc ho => ⟨?_, ?_⟩⟩
  · rw [hregister]
    rfl
  · exact admitForm_tare (usableTare_eq_some.mpr ⟨hmode, i, hlookup, husable⟩)
  · refine admitForm_noTare (Option.eq_none_iff_forall_ne_some.mpr (fun e he => ?_))
    obtain ⟨hmode, i, hlookup, husable⟩ := usableTare_eq_some.mp he
    exact hno ⟨hmode, i, e, hlookup, husable⟩
  · rw [hregister]
    rfl
  · rw [State.bound, hregister]
    exact (bind_get _ _ _ _).trans (if_pos rfl)
  · rw [hunit]
    rfl
  · rw [ht.deck]
    exact finish_admitting_deck (s := s.handling l 0x01 tag) s.register.mode hcap ha
  · obtain ⟨_, _, _, _, _, _, _, hended⟩ := endCapture_frame f.lane (.failed .preempted) (s.handling l 0x01 tag)
    rw [hunit, hended c hc]
    exact (ended_lastSpot _ c _).2 lk ho
  · exact htold _ lk (hpreempted c lk hc ho)

/-! ### A visit admitted on a stored tare -/

/-- R102, R103: the visit of an ADMIT whose plan needs no entry weighing. -/
def admitEntering (s : State) (l : LinkId) (f : AdmitFields) : Visit :=
  { admitForm s l f with state := .entering, capMark := false }

/-- R103: the work of an ADMIT that needs no entry weighing: the visit is appended and bound, and the lane raises. -/
def State.entering (s : State) (l : LinkId) (f : AdmitFields) : State :=
  raiseLane f.lane (.admitted s.register.newNumber) (appendVisit f.lane (admitEntering s l f) s)

section
variable {s : State} {l : LinkId} {f : AdmitFields}

theorem yard_entering : YardOnly s (s.entering l f) :=
  (quiet_appendVisit f.lane _ s).yard.trans (yard_raiseLane f.lane _ _)

theorem entering_register : (s.entering l f).register =
    Register.bind { s.register with visits := s.register.visits ++ [admitEntering s l f]
                                    counter := nextVisit s.register.newNumber } f.lane s.register.newNumber :=
  raiseLane_register f.lane _ _

theorem entering_closingHolds : (s.entering l f).closingHolds := by
  unfold State.closingHolds
  rw [entering_register]
  simp [Register.bind]

theorem entering_units : (s.entering l f).units = s.units := by
  unfold State.entering raiseLane
  rw [(applyLane_frame f.lane _ _).1]
  rfl

theorem entering_told (m : YardMode) :
    s.tells (finish m (s.entering l f)) (.visit s.register.newNumber .admitted) := by
  refine tells_finish m (fun w e => by cases e) (fun lk => ?_)
  exact (yard_raiseLane f.lane _ _).links.told _ lk _ (fun w e => by cases e)
    (appendVisit_told f.lane (admitEntering s l f) s lk)

theorem finish_entering_lane (m : YardMode) :
    ((finish m (s.entering l f)).lane f.lane).cause = some ⟨.admitted s.register.newNumber, .pending⟩ ∧
      ((finish m (s.entering l f)).lane f.lane).count = 0 ∧
      ((s.lane f.lane).barrier = .down → ((finish m (s.entering l f)).lane f.lane).barrier =
        (if (s.lane f.lane).bothLimits then .jammed else if (s.lane f.lane).up.active then .up else .raising)) ∧
      ((s.lane f.lane).barrier = .jammed → ((finish m (s.entering l f)).lane f.lane).barrier = .jammed) := by
  obtain ⟨hcause, hcount, hbarrier⟩ := finish_lane_arm m (s.entering l f) f.lane
  obtain ⟨_, hgiven, hzero, _, _, _, _, _, hstays, hraises⟩ := raise_spec (s.lane f.lane) (.admitted s.register.newNumber)
  have hlane : (s.entering l f).lane f.lane = ((s.lane f.lane).raise (.admitted s.register.newNumber)).lane :=
    applyLane_lane_self _ _ _
  rw [hcause, hcount, hbarrier, hlane]
  refine ⟨hgiven, hzero, fun h => hraises (.inr (.inl h)), fun h => ?_⟩
  rw [hstays (.inr (.inr h))]
  exact h

end

/-- Settles O32: the checks pass, and the visit appended and the arm raised stand at the close of the event. -/
theorem admitOnStoredTareRaises : Obligations.AdmitOnStoredTareRaises := by
  intro s l tag p f i e hr hrole hf h1 h2 h3 h4 h5 h6 h7 h8 h9 hmode hdir hlookup husable
  have hneeds : ¬(admitVisit s l f).needsEntry = true := by
    rw [admitVisit_needsEntry]
    exact fun h => h ⟨hmode, hdir, i, e, hlookup, husable⟩
  have hbody := admitBody_enters (s := s.handling l 0x01 tag) (l := l) (f := f) ⟨h1, h2, h3, h4, h5, h6, h7, h8, h9⟩
    hneeds
  rw [admitVisit_stored (s := s.handling l 0x01 tag) hneeds] at hbody
  obtain ⟨t, hrequest, ht, hreplied, htold⟩ := request_closes (u := (s.handling l 0x01 tag).entering l f) hr hrole
    yard_entering hbody
  have hregister : t.register = _ := ht.register.trans
    ((finish_register_kept s.register.mode (entering_closingHolds (s := s.handling l 0x01 tag))).trans entering_register)
  have hunit : t.unit f.lane = s.unit f.lane := (ht.unit f.lane).trans
    ((finish_unit s.register.mode f.lane (entering_closingHolds (s := s.handling l 0x01 tag))).trans
      (congrArg (Vector.get · f.lane) entering_units))
  obtain ⟨hcause, hcount, hdown, hjammed⟩ := finish_entering_lane (s := s.handling l 0x01 tag) (l := l) (f := f)
    s.register.mode
  obtain ⟨htare, hstored, hfallback, haccount⟩ := admitForm_tare (l := l) (usableTare_eq_some.mpr
    ⟨hmode, i, hlookup, husable⟩)
  refine ⟨t, admitEntering s l f, hrequest ▸ exec_admitVehicle hf l tag s, hreplied, ?_, rfl, rfl, rfl, rfl, htare,
    hstored, haccount, hfallback, ?_, hunit,
    fun m => htold _ m (entering_told (s := s.handling l 0x01 tag) s.register.mode m), ?_⟩
  · rw [hregister]
    rfl
  · rw [State.bound, hregister]
    exact (bind_get _ _ _ _).trans (if_pos rfl)
  · rw [ht.lane]
    exact ⟨hcause, hcount, hdown, hjammed⟩

end Sys2Proof.Machine
end

section
/-! PROOF. A DEPART that passes its checks (R110 to R112, R99, R100, R114, R150): the visit that waits for its exit
weighing, and the DELIVERY released at once on its stored tare. -/

namespace Sys2Proof.Machine

/-! ### The checks passed -/

/-- What a DEPART finds where R110's checks pass, and no mark of service stands on the deck. -/
structure State.departs (s : State) (f : DepartFields) (v : Visit) : Prop where
  enabled : s.disabled f.lane = false
  direction : (s.lane f.lane).setup.direction = .exit
  notClosed : s.register.mode ≠ .closed
  free : s.bound f.lane = none
  occupied : (s.lane f.lane).deckLoop.occupied = true
  found : s.register.find f.visit = some v
  onSite : v.state = .onSite
  plate : f.plate = none ∨ f.plate = some v.plate
  service : (s.deck f.lane).service = false

section
variable {s : State} {f : DepartFields} {v : Visit}

theorem departKnownChecks_pass (h : s.departs f v) : firstFailure (departKnownChecks s f) = none := by
  refine firstFailure_none_of_agree (departKnownChecks_agree s f) ?_
  simp only [List.forall_mem_cons]
  exact ⟨h.enabled, h.direction, h.notClosed, h.free, h.occupied, by rw [h.found]; exact Option.some_ne_none v,
    fun x hx => by cases hx⟩

theorem departLaneChecks_pass (h : s.departs f v) : firstFailure (departLaneChecks s f.lane) = none :=
  firstFailure_eq_none.mpr (fun p hp =>
    firstFailure_eq_none.mp (departKnownChecks_pass h) p (List.mem_append_left _ hp))

theorem departVisitChecks_pass (h : s.departs f v) (hdeck : v.needsExit = true → (s.deck f.lane).state ≠ .fault) :
    firstFailure (departVisitChecks s f v) = none := by
  refine firstFailure_none_of_agree (departVisitChecks_agree s f Iff.rfl) ?_
  simp only [List.forall_mem_cons]
  exact ⟨h.onSite, h.plate, ⟨h.service, hdeck⟩, fun x hx => by cases hx⟩

/-- R112: the visit as the DEPART leaves it, before its capture or its release. -/
def DepartFields.departing (f : DepartFields) (v : Visit) : Visit := v.departing f.lane f.plate.isNone

theorem departing_number (h : s.departs f v) : (f.departing v).number = f.visit := (find_some h.found).2

theorem departing_found (h : s.departs f v) : s.register.find (f.departing v).number = some v := by
  rw [departing_number h]
  exact h.found

theorem departBody_waits (h : s.departs f v) (hneeds : v.needsExit = true)
    (hcap : (s.deck f.lane).state.capturable = true) (hspot : ∀ c, (s.unit f.lane).cap = some c → c.owner.kind = .spot) :
    departBody f s = taken s (departForCapture f.lane (f.departing v) s) .accepted (be4 0) := by
  have hfault : (s.deck f.lane).state ≠ .fault := by
    intro e
    rw [e] at hcap
    cases hcap
  unfold departBody
  rw [checked_passes (departLaneChecks_pass h), h.found]
  dsimp only
  rw [checked_passes (departVisitChecks_pass h (fun _ => hfault)), captureCheck, if_pos hneeds, if_pos hneeds,
    visitRefusal_eq_none.mpr ⟨hcap, h.occupied, hspot⟩]
  rfl

theorem departBody_releases (h : s.departs f v) (hneeds : ¬v.needsExit = true) :
    departBody f s =
      taken s (departReleased f.lane (f.departing v) s) .ok (be4 (orZero s.journal.counter)) := by
  unfold departBody
  rw [checked_passes (departLaneChecks_pass h), h.found]
  dsimp only
  rw [checked_passes (departVisitChecks_pass h (fun e => absurd e hneeds)), captureCheck, if_neg hneeds, if_neg hneeds]
  rfl

/-! ### A visit that waits for its exit weighing -/

/-- R112: what a DEPART that needs an exit weighing leaves at the close of its event. -/
theorem finish_departForCapture (m : YardMode) (h : s.departs f v)
    (hspot : ∀ c, (s.unit f.lane).cap = some c → c.owner.kind = .spot) :
    (finish m (departForCapture f.lane (f.departing v) s)).register.find f.visit =
        some { f.departing v with state := .weighOut, capMark := true } ∧
      (finish m (departForCapture f.lane (f.departing v) s)).register.bindings.get f.lane = some f.visit ∧
      ((finish m (departForCapture f.lane (f.departing v) s)).unit f.lane).cap =
        some ⟨.visitOut f.visit, s.clock.time, firstTimeout s f.lane⟩ ∧
      (finish m (departForCapture f.lane (f.departing v) s)).journal.records = s.journal.records ∧
      (finish m (departForCapture f.lane (f.departing v) s)).journal.counter = s.journal.counter := by
  have hregister := departForCapture_register hspot (f.departing v)
  have hfind : (departForCapture f.lane (f.departing v) s).register.find f.visit =
      some { f.departing v with state := .weighOut, capMark := true } := by
    rw [hregister, ← departing_number h]
    exact find_update_self (r := s.register) (fun _ => { f.departing v with state := .weighOut, capMark := true })
      (fun _ _ => rfl) (departing_found h)
  have hclosing := closingHolds_of_find hfind
  have hunit : (departForCapture f.lane (f.departing v) s).unit f.lane = _ :=
    startCapture_unit f.lane (.visitOut (f.departing v).number) s
  have hjournal : (departForCapture f.lane (f.departing v) s).journal = s.journal :=
    (quiet_startCapture f.lane _ s).journal
  rw [finish_register_kept m hclosing, finish_unit m f.lane hclosing, (finish_records m _).1, (finish_records m _).2,
    hunit, hjournal]
  refine ⟨hfind, ?_, ?_, rfl, rfl⟩
  · rw [hregister, ← departing_number h]
    exact (bind_get _ _ _ _).trans (if_pos rfl)
  · rw [departing_number h]

/-! ### A DELIVERY on its stored tare -/

/-- R112, R114: what a DEPART of a visit released at once leaves at the close of its event. -/
theorem finish_departReleased (m : YardMode) {num : Nat} (h : s.departs f v) (hj : s.journal.counter = some num) :
    (finish m (departReleased f.lane (f.departing v) s)).register.find f.visit =
        some ((f.departing v).released (some num)) ∧
      (finish m (departReleased f.lane (f.departing v) s)).register.bindings.get f.lane = some f.visit ∧
      (finish m (departReleased f.lane (f.departing v) s)).unit f.lane = s.unit f.lane ∧
      (finish m (departReleased f.lane (f.departing v) s)).journal.records =
        (if s.journal.records.length < 512 then s.journal.records else s.journal.records.drop 1) ++
          [{ (f.departing v).releaseTicket s.clock.time with number := num }] ∧
      (finish m (departReleased f.lane (f.departing v) s)).journal.counter =
        some (if num = 4294967295 then 1 else num + 1) ∧
      ((finish m (departReleased f.lane (f.departing v) s)).lane f.lane).cause = some ⟨.released f.visit, .pending⟩ ∧
      ((finish m (departReleased f.lane (f.departing v) s)).lane f.lane).count = 0 := by
  have hregister := departReleased_register f.lane (f.departing v) s
  rw [hj] at hregister
  have hfind : (departReleased f.lane (f.departing v) s).register.find f.visit =
      some ((f.departing v).released (some num)) := by
    rw [hregister, ← departing_number h]
    exact find_update_self (r := s.register) (fun _ => (f.departing v).released (some num)) (fun _ _ => rfl)
      (departing_found h)
  have hclosing := closingHolds_of_find hfind
  obtain ⟨hcause, hcount, _⟩ := finish_lane_arm m (departReleased f.lane (f.departing v) s) f.lane
  obtain ⟨hwritten, hadvanced⟩ := writeRecord_records ((f.departing v).releaseTicket s.clock.time) hj
  obtain ⟨_, hgiven, hzero, _⟩ := raise_spec (s.lane f.lane) (.released f.visit)
  rw [finish_register_kept m hclosing, finish_unit m f.lane hclosing, (finish_records m _).1, (finish_records m _).2,
    hcause, hcount]
  refine ⟨hfind, ?_, ?_⟩
  · rw [hregister, ← departing_number h]
    exact (bind_get _ _ _ _).trans (if_pos rfl)
  · unfold departReleased
    dsimp only
    rw [departing_number h, (fillAll_records _).1, (fillAll_records _).2, (quiet_raiseLane f.lane _ _).journal,
      releaseVisit_frame]
    dsimp only
    rw [hwritten, hadvanced]
    refine ⟨?_, rfl, rfl, ?_⟩
    · unfold State.unit raiseLane
      rw [fillAll_frame, (applyLane_frame f.lane _ _).1]
    · unfold raiseLane State.lane
      rw [fillAll_frame]
      change ((applyLane _ _ _).lane _).cause = _ ∧ ((applyLane _ _ _).lane _).count = _
      rw [applyLane_lane_self]
      exact ⟨hgiven, hzero⟩

end

/-- Settles O33: the checks pass, and the visit, its binding and its capture stand at the close of the event. -/
theorem departStartsExitWeighing : Obligations.DepartStartsExitWeighing := by
  intro s l tag p f v hr hf h1 h2 h3 h4 h5 h6 h7 h8 h9 hcap hspot hplan
  have hdeparts : (s.handling l 0x02 tag).departs f v := ⟨h1, h2, h3, h4, h5, h6, h7, h8, h9⟩
  have hyard : YardOnly (s.handling l 0x02 tag) (departForCapture f.lane (f.departing v) (s.handling l 0x02 tag)) :=
    (yard_startCapture f.lane _ _).trans (yard_register _ _)
  obtain ⟨t, hrequest, ht, hreplied, _⟩ := request_closes hr (everyRole_of_enabled hr.2.1) hyard
    (departBody_waits hdeparts ((needsExit_iff v).mpr hplan) hcap hspot)
  obtain ⟨hfind, hbound, hunit, hrecords, hcounter⟩ := finish_departForCapture s.register.mode hdeparts hspot
  refine ⟨t, hrequest ▸ exec_depart hf l tag s, hreplied, ?_, (ht.bound f.lane).trans hbound, ?_,
    ht.records.trans hrecords, ht.counter.trans hcounter⟩
  · rw [ht.register]
    exact hfind
  · rw [ht.unit]
    exact hunit

/-- Settles O34: the checks pass, and the record, the visit and the raise stand at the close of the event. -/
theorem departReleasesStoredDelivery : Obligations.DepartReleasesStoredDelivery := by
  intro s l tag p f v w tare num hr hf h1 h2 h3 h4 h5 h6 h7 h8 h9 hmode hdir hfirst htare hj flags
  have hdeparts : (s.handling l 0x02 tag).departs f v := ⟨h1, h2, h3, h4, h5, h6, h7, h8, h9⟩
  have hneeds : ¬v.needsExit = true := by
    rw [needsExit_iff]
    exact fun h => h ⟨hmode, hdir⟩
  have hyard : YardOnly (s.handling l 0x02 tag) (departReleased f.lane (f.departing v) (s.handling l 0x02 tag)) :=
    (work_departReleased _ _ _).yard
  have hbody := departBody_releases hdeparts hneeds
  rw [show (s.handling l 0x02 tag).journal.counter = some num from hj] at hbody
  obtain ⟨t, hrequest, ht, hreplied, _⟩ := request_closes hr (everyRole_of_enabled hr.2.1) hyard hbody
  obtain ⟨hfind, hbound, hunit, hrecords, hcounter, hcause, hcount⟩ := finish_departReleased s.register.mode hdeparts hj
  have hdifference : (f.departing v).difference = w.weight - tare := by
    simp [DepartFields.departing, Visit.departing, Visit.difference, hmode, hdir, hfirst, htare, weightOf, orZero]
  obtain ⟨hnet, hreversed⟩ := net_of_difference hdifference
  have hnegative : (w.weight - (tare : Int) < 0) = (w.weight < tare) := propext (by omega)
  refine ⟨t, hrequest ▸ exec_depart hf l tag s, hreplied, ?_, ht.counter.trans hcounter, ?_,
    (ht.bound f.lane).trans hbound, (ht.unit f.lane).trans hunit, ?_⟩
  · rw [ht.records, hrecords]
    refine congrArg (_ ++ [·]) ?_
    unfold Visit.releaseTicket Visit.ticketOf
    rw [hnet, hreversed]
    simp only [hnegative]
    simp [DepartFields.departing, Visit.departing, hmode, hdir, hfirst, htare, Weighing.onTicket, flags,
      State.handling, (find_some h6).2]
  · rw [ht.register]
    exact hfind
  · rw [ht.lane]
    exact ⟨hcause, hcount⟩

end Sys2Proof.Machine
end

section
/-! PROOF. The requests that end a visit's business on its lane or change the visit (R108, R109, R117 to R120, R61, R86):
RECAPTURE, CANCEL, CLEAR_LANE, VOID and RECLASSIFY. -/

namespace Sys2Proof.Machine

/-! ### The capture of a visit -/

section
variable {d : DeckId} {v : Nat} {s : State} {c : Capture}

theorem endVisitCapture_other (h : ∀ c, (s.unit d).cap = some c → ¬(c.owner = .visitIn v ∨ c.owner = .visitOut v)) :
    endVisitCapture d v s = s := by
  unfold endVisitCapture
  split
  · rfl
  · rename_i c hc
    exact if_neg (h c hc)

theorem endVisitCapture_owned (hc : (s.unit d).cap = some c) (ho : c.owner = .visitIn v ∨ c.owner = .visitOut v) :
    endVisitCapture d v s = endCapture d (.failed .aborted) s := by
  unfold endVisitCapture
  rw [hc]
  exact if_pos ho

/-- The end of a capture names its visit: a capture for another is left. -/
theorem endVisitCapture_cases (d : DeckId) (v : Nat) (s : State) :
    endVisitCapture d v s = s ∨
      ∃ c, (s.unit d).cap = some c ∧ (c.owner = .visitIn v ∨ c.owner = .visitOut v) ∧
        endVisitCapture d v s = endCapture d (.failed .aborted) s := by
  by_cases h : ∃ c, (s.unit d).cap = some c ∧ (c.owner = .visitIn v ∨ c.owner = .visitOut v)
  · obtain ⟨c, hc, ho⟩ := h
    exact .inr ⟨c, hc, ho, endVisitCapture_owned hc ho⟩
  · exact .inl (endVisitCapture_other (fun c hc ho => h ⟨c, hc, ho⟩))

theorem endVisitCapture_lanes (d : DeckId) (v : Nat) (s : State) : (endVisitCapture d v s).lanes = s.lanes := by
  obtain e | ⟨_, _, _, e⟩ := endVisitCapture_cases d v s
  · rw [e]
  · rw [e]
    exact (endCapture_failed d .aborted s).1

theorem endVisitCapture_decks (d : DeckId) (v : Nat) (s : State) : (endVisitCapture d v s).decks = s.decks := by
  obtain e | ⟨_, _, _, e⟩ := endVisitCapture_cases d v s
  · rw [e]
  · rw [e]
    exact (endCapture_frame d _ s).2.1

/-- R61: the unit is IDLE and the end is told. -/
theorem endVisitCapture_ends (hc : (s.unit d).cap = some c) (ho : c.owner = .visitIn v ∨ c.owner = .visitOut v) :
    ((endVisitCapture d v s).unit d).cap = none ∧
      s.tells (endVisitCapture d v s) (.capture d c.owner (.failed .aborted)) := by
  rw [endVisitCapture_owned hc ho]
  refine ⟨(endCapture_frame d _ s).1, (endCapture_told d _ s c hc).1 ?_⟩
  obtain ho | ho := ho <;> rw [ho] <;> exact fun e => by cases e

theorem handOutcome_left (w : CapOwner) (o : CapOutcome) (hw : w = .visitIn v ∨ w = .visitOut v)
    (h : s.register.find v = none) : handOutcome d w o s = s := by
  unfold handOutcome
  obtain hw | hw := hw <;> rw [hw] <;> dsimp only <;> rw [h]

/-- R106: the end of a capture whose visit has left finds no visit. -/
theorem endVisitCapture_register_left (h : s.register.find v = none) :
    (endVisitCapture d v s).register = s.register := by
  obtain e | ⟨c, hc, ho, e⟩ := endVisitCapture_cases d v s
  · rw [e]
  · rw [e, endCapture_of_cap hc]
    exact congrArg State.register (a₂ := s.captureEnded d c (.failed .aborted)) (handOutcome_left c.owner _ ho h)

end

/-! ### The cause of a visit -/

theorem withdrawVisit_cause {k : Lane} {v : Nat} {c : Cause} (hc : k.cause = some c) (hp : c.isPending = true)
    (hv : c.kind.visit? = some v) : (k.withdrawVisit v).lane.cause = some { c with status := .withdrawn } := by
  obtain ⟨_, _, _, _, _, _, _, _, hwithdrawn⟩ := withdraw_spec k (fun c => c.kind.visit? == some v)
  refine (hwithdrawn ?_).trans (by rw [hc]; rfl)
  unfold Lane.pendingCause
  rw [hc]
  simp [hp, hv]

theorem withdrawLane_cause {s : State} {n : LaneId} {v : Nat} {c : Cause} (hc : (s.lane n).cause = some c)
    (hp : c.isPending = true) (hv : c.kind.visit? = some v) :
    ((withdrawLane n v s).lane n).cause = some { c with status := .withdrawn } := by
  rw [withdrawLane, applyLane_lane_self]
  exact withdrawVisit_cause hc hp hv

/-! ### A visit that leaves -/

theorem find_leave_self (r : Register) (v : Nat) : (r.leave v).find v = none := by
  rw [find_leave, if_pos rfl]

theorem unbound_leave (r : Register) (v : Nat) (n : LaneId) : (r.leave v).bindings.get n ≠ some v := by
  rw [leave_get]
  split
  · exact fun e => by cases e
  · assumption

theorem cancelVisit_register (n : LaneId) (v : Nat) (s : State) :
    (cancelVisit n v s).register = s.register.leave v :=
  endVisitCapture_register_left (find_leave_self _ _)

theorem cancelVisit_told (n : LaneId) (v : Nat) (s : State) : s.tells (cancelVisit n v s) (.visit v .cancelled) :=
  tells_of_yard ((yard_register s _).trans (yard_endVisitCapture n v _))
    (fun lk => told_offerAll _ _ lk (fun w e => by cases e))

theorem cancelVisit_ends {n : LaneId} {v : Nat} {s : State} {c : Capture} (hc : (s.unit n).cap = some c)
    (ho : c.owner = .visitIn v ∨ c.owner = .visitOut v) :
    ((cancelVisit n v s).unit n).cap = none ∧
      s.tells (cancelVisit n v s) (.capture n c.owner (.failed .aborted)) := by
  obtain ⟨hcap, htold⟩ := endVisitCapture_ends (s := { s with register := s.register.leave v }) hc ho
  exact ⟨hcap, tells_then (fun w e => by cases e) htold (yard_offerAll _ _)⟩

/-- What the close of an event leaves of the removal of a visit. -/
theorem finish_left {u : State} {r : Register} {v : Nat} (m : YardMode) (h : u.register = r.leave v) :
    (finish m u).register.visits = r.visits.filter (fun x => x.number != v) ∧
      ∀ n, (finish m u).register.bindings.get n = (r.leave v).bindings.get n := by
  obtain ⟨y, hy⟩ := finish_register m u
  rw [hy, h]
  exact ⟨rfl, fun _ => rfl⟩

theorem finish_unit_cap {u : State} {d : DeckId} (m : YardMode) (h : (u.unit d).cap = none) :
    ((finish m u).unit d).cap = none := by
  rw [finish_idle_unit m h]
  exact h

/-! ### The requests on the visit a lane is bound to -/

theorem exec_recapture (l : LinkId) (tag : Byte) (n : LaneId) (s : State) :
    exec (.recapture l tag (be1 n.val)) s = .next (request l 0x03 tag gateOffice (some n) recaptureBody s) := by
  rw [← quadField_be1 n]
  rfl

theorem exec_cancel (l : LinkId) (tag : Byte) (n : LaneId) (s : State) :
    exec (.cancel l tag (be1 n.val)) s = .next (request l 0x04 tag gateOffice (some n) cancelBody s) := by
  rw [← quadField_be1 n]
  rfl

theorem exec_clearLane (l : LinkId) (tag : Byte) (n : LaneId) (s : State) :
    exec (.clearLane l tag (be1 n.val)) s = .next (request l 0x06 tag gateOffice (some n) clearLaneBody s) := by
  rw [← quadField_be1 n]
  rfl

/-- R98: an enabled lane bound to a visit of the register. -/
structure State.serves (s : State) (n : LaneId) (v : Visit) : Prop where
  enabled : s.disabled n = false
  bound : s.bound n = some v.number
  found : s.register.find v.number = some v

section
variable {s : State} {n : LaneId} {v : Visit} (h : s.serves n v)
include h

theorem State.serves.boundVisit : s.boundVisit n = some v := by
  rw [State.boundVisit, h.bound]
  exact h.found

/-- R108: the checks pass. -/
theorem recaptureBody_starts (hs : v.state = .weighIn) (hmode : s.register.mode ≠ .closed)
    (ho : (s.lane n).deckLoop.occupied = true) (hcap : (s.deck n).state.capturable = true)
    (hspot : ∀ c, (s.unit n).cap = some c → c.owner.kind = .spot) :
    recaptureBody n s = taken s (recaptureVisit n v s) .accepted [] := by
  have hwaits : s.waitingFor n v.number = false := by
    unfold State.waitingFor
    cases hc : (s.unit n).cap with
    | none => rfl
    | some c =>
      have hkind := hspot c hc
      cases howner : c.owner with
      | spot lk => simp [howner]
      | visitIn w | visitOut w =>
        rw [howner] at hkind
        cases hkind
  unfold recaptureBody
  rw [checked_passes, h.boundVisit]
  · dsimp only
    rw [checked_passes, visitRefusal_eq_none.mpr ⟨hcap, ho, hspot⟩]
    simp [firstFailure, hs, hwaits]
  · simp [firstFailure, h.enabled, hmode]

theorem cancelBody_cancels (hs : v.state = .weighIn) :
    cancelBody n s = taken s (cancelVisit n v.number s) .ok [] := by
  unfold cancelBody
  rw [checked_passes, h.boundVisit]
  · exact if_pos hs
  · simp [firstFailure, h.enabled]

theorem clearLaneBody_clears (hs : v.state = .released) :
    clearLaneBody n s = taken s (clearVisit n v.number s) .ok [] := by
  unfold clearLaneBody
  rw [checked_passes, h.boundVisit]
  · exact if_pos hs
  · simp [firstFailure, h.enabled]

end

/-- R108: the register with the capture mark set. -/
theorem recaptureVisit_register {n : LaneId} {s : State} (v : Visit)
    (hspot : ∀ c, (s.unit n).cap = some c → c.owner.kind = .spot) :
    (recaptureVisit n v s).register = s.register.update v.number (fun x => { x with capMark := true }) :=
  congrArg (fun r : Register => r.update v.number (fun x => { x with capMark := true }))
    (startCapture_register hspot _)

theorem quiet_recaptureVisit (n : LaneId) (v : Visit) (s : State) : QuietWork s (recaptureVisit n v s) :=
  (quiet_startCapture n _ s).trans (quiet_register _ _)

theorem clearVisit_register (n : LaneId) (v : Nat) (s : State) :
    (clearVisit n v s).register = s.register.leave v :=
  congrArg (fun r : Register => r.leave v) (withdrawLane_register n v s)

theorem clearVisit_told (n : LaneId) (v : Nat) (s : State) :
    s.tells (clearVisit n v s) (.visit v .removedWithoutPassage) :=
  tells_of_yard (yard_withdrawLane n v s) (fun lk => told_offerAll _ _ lk (fun w e => by cases e))

theorem quiet_clearVisit (n : LaneId) (v : Nat) (s : State) : QuietWork s (clearVisit n v s) :=
  (quiet_withdrawLane n v s).trans (quiet_registerTold _ _ _)

/-- Settles O35: each request's checks pass on the bound visit, and its work stands at the close of the event. -/
theorem laneRequestsServeBoundVisit : Obligations.LaneRequestsServeBoundVisit := by
  intro s l tag n v hr hrole henabled hbound hfind
  have hserves : ∀ code, (s.handling l code tag).serves n v := fun _ => ⟨henabled, hbound, hfind⟩
  refine ⟨fun hs hmode ho hcap hspot => ?_, fun hs => ?_, fun hs => ?_⟩
  · obtain ⟨t, hrequest, ht, hreplied, _⟩ := request_closes hr hrole (quiet_recaptureVisit n v _).yard
      (recaptureBody_starts (hserves 0x03) hs hmode ho hcap hspot)
    have hregister := recaptureVisit_register (s := s.handling l 0x03 tag) v hspot
    have hmarked : (recaptureVisit n v (s.handling l 0x03 tag)).register.find v.number =
        some { v with capMark := true } := by
      rw [hregister]
      exact find_update_self (r := s.register) _ (fun _ h => h) hfind
    have hclosing := closingHolds_of_find hmarked
    refine ⟨t, hrequest ▸ exec_recapture l tag n s, hreplied, ?_, ?_, ?_⟩
    · rw [ht.unit, finish_unit _ n hclosing]
      exact congrArg CaptureUnit.cap (startCapture_unit n (.visitIn v.number) (s.handling l 0x03 tag))
    · rw [ht.register, finish_register_kept _ hclosing]
      exact hmarked
    · rw [ht.bound, finish_register_kept _ hclosing, hregister]
      exact hbound
  · obtain ⟨t, hrequest, ht, hreplied, htold⟩ := request_closes hr hrole (quiet_cancelVisit n v.number _).yard
      (cancelBody_cancels (hserves 0x04) hs)
    obtain ⟨hvisits, hbindings⟩ := finish_left s.register.mode
      (cancelVisit_register n v.number (s.handling l 0x04 tag))
    refine ⟨t, hrequest ▸ exec_cancel l tag n s, hreplied, ?_, ?_, ?_, fun lk => htold _ lk ?_, fun c hc ho => ?_⟩
    · rw [ht.register]
      exact hvisits
    · rw [ht.bound, hbindings, leave_get]
      exact if_pos hbound
    · rw [ht.records, (finish_records _ _).1, (quiet_cancelVisit n v.number _).journal]
      rfl
    · exact tells_finish _ (fun w e => by cases e) (cancelVisit_told n v.number _) lk
    · obtain ⟨hcap, hended⟩ := cancelVisit_ends (s := s.handling l 0x04 tag) hc (.inl ho)
      exact ⟨by rw [ht.unit]; exact finish_unit_cap _ hcap,
        fun lk => htold _ lk (tells_finish _ (fun w e => by cases e) hended lk)⟩
  · obtain ⟨t, hrequest, ht, hreplied, htold⟩ := request_closes hr hrole (quiet_clearVisit n v.number _).yard
      (clearLaneBody_clears (hserves 0x06) hs)
    obtain ⟨hvisits, hbindings⟩ := finish_left s.register.mode
      (clearVisit_register n v.number (s.handling l 0x06 tag))
    refine ⟨t, hrequest ▸ exec_clearLane l tag n s, hreplied, ?_, ?_, ?_, fun lk => htold _ lk ?_, fun c hc hp hv => ?_⟩
    · rw [ht.register]
      exact hvisits
    · rw [ht.bound, hbindings, leave_get]
      exact if_pos hbound
    · rw [ht.records, (finish_records _ _).1, (quiet_clearVisit n v.number _).journal]
      rfl
    · exact tells_finish _ (fun w e => by cases e) (clearVisit_told n v.number _) lk
    · rw [ht.lane, (finish_lane_arm _ _ n).1]
      exact withdrawLane_cause (s := s.handling l 0x06 tag) hc hp hv

end Sys2Proof.Machine
end

section
/-! PROOF. VOID and RECLASSIFY (R118 to R120, R86, R61, R106, R114): what they refuse, and what they do by the visit's
state. -/

namespace Sys2Proof.Machine

/-! ### The VOID record, the visit gone and the capture ended -/

/-- R118: the VOID record written, and the visit's cause withdrawn on the lane that serves it. -/
def State.voidWritten (s : State) (v : Visit) : State :=
  onLane v.laneOf (fun n s => withdrawLane n v.number s) (writeRecord (v.voidTicket s.clock.time) s)

/-- R118: the visit leaves, and is told voided. -/
def voidRemoved (v : Visit) (s : State) : State :=
  { s with register := s.register.leave v.number, links := offerAll s.links (.visit v.number .voided) }

/-- R118: with the visit gone, the links' places are filled. -/
def State.voidLeft (s : State) (v : Visit) : State := fillAll (voidRemoved v (s.voidWritten v))

theorem voidRecorded_eq (v : Visit) (s : State) :
    voidRecorded v s = onLane v.laneOf (fun n s => endVisitCapture n v.number s) (s.voidLeft v) := rfl

/-- What an operation on every lane keeps is kept by the operation on the lane that serves a visit. -/
theorem onLane_keeps {α : Type} (f : State → α) {g : LaneId → State → State} (h : ∀ n s, f (g n s) = f s)
    (n : Option LaneId) (s : State) : f (onLane n g s) = f s := by
  cases n with
  | none => rfl
  | some n => exact h n s

section
variable (v : Visit) (s : State)

theorem quiet_voidWithdrawn (u : State) :
    QuietWork u (onLane v.laneOf (fun n s => withdrawLane n v.number s) u) :=
  quiet_onLane _ (fun n s => quiet_withdrawLane n v.number s) u

theorem quiet_voidEnded (u : State) :
    QuietWork u (onLane v.laneOf (fun n s => endVisitCapture n v.number s) u) :=
  quiet_onLane _ (fun n s => quiet_endVisitCapture n v.number s) u

theorem voidWritten_yard : YardOnly s (s.voidWritten v) :=
  (yard_writeRecord _ s).trans (quiet_voidWithdrawn v _).yard

theorem voidWritten_journal : (s.voidWritten v).journal = (writeRecord (v.voidTicket s.clock.time) s).journal :=
  (quiet_voidWithdrawn v _).journal

theorem voidWritten_register : (s.voidWritten v).register = s.register :=
  (onLane_keeps State.register (fun n u => withdrawLane_register n v.number u) _ _).trans (writeRecord_register _ s)

theorem withdrawLane_units (n : LaneId) (w : Nat) (u : State) : (withdrawLane n w u).units = u.units := by
  unfold withdrawLane
  rw [(applyLane_frame n _ u).1]

theorem voidWritten_units : (s.voidWritten v).units = s.units :=
  (onLane_keeps State.units (fun n u => withdrawLane_units n v.number u) _ _).trans
    (by rw [(writeRecord_frame _ s).1])

theorem voidLeft_yard : YardOnly s (s.voidLeft v) :=
  ((voidWritten_yard v s).trans (quiet_registerTold _ _ _).yard).trans (yard_fillAll _)

theorem voidLeft_register : (s.voidLeft v).register = s.register.leave v.number := by
  unfold State.voidLeft
  rw [fillAll_register]
  exact congrArg (fun r : Register => r.leave v.number) (voidWritten_register v s)

theorem voidLeft_units : (s.voidLeft v).units = s.units := by
  unfold State.voidLeft
  rw [fillAll_frame]
  exact voidWritten_units v s

theorem voidLeft_lanes : (s.voidLeft v).lanes = (s.voidWritten v).lanes := by
  unfold State.voidLeft
  rw [fillAll_frame]
  rfl

/-- R119: the visit is told voided before the fills and the end of its capture. -/
theorem voidLeft_told : s.tells (s.voidLeft v) (.visit v.number .voided) := by
  have htold : s.tells (voidRemoved v (s.voidWritten v)) (.visit v.number .voided) :=
    tells_of_yard (voidWritten_yard v s) (fun lk => told_offerAll _ _ lk (fun w e => by cases e))
  exact tells_then (fun w e => by cases e) htold (yard_fillAll _)

theorem voidRecorded_register : (voidRecorded v s).register = s.register.leave v.number := by
  rw [voidRecorded_eq]
  cases v.laneOf with
  | none => exact voidLeft_register v s
  | some n =>
    have hgone : (s.voidLeft v).register.find v.number = none := by
      rw [voidLeft_register]
      exact find_leave_self _ _
    exact (endVisitCapture_register_left hgone).trans (voidLeft_register v s)

theorem voidRecorded_told : s.tells (voidRecorded v s) (.visit v.number .voided) :=
  tells_then (fun w e => by cases e) (voidLeft_told v s) (quiet_voidEnded v _).yard

/-- R118, R150: one record, with the counter's number. -/
theorem voidRecorded_records {c : Nat} (hc : s.journal.counter = some c) :
    (voidRecorded v s).journal.counter = some (if c = 4294967295 then 1 else c + 1) ∧
      (voidRecorded v s).journal.records =
        (if s.journal.records.length < 512 then s.journal.records else s.journal.records.drop 1) ++
          [{ v.voidTicket s.clock.time with number := c }] := by
  obtain ⟨hrecords, hcounter⟩ := writeRecord_records (v.voidTicket s.clock.time) hc
  obtain ⟨hfilled, hcount⟩ := fillAll_records (voidRemoved v (s.voidWritten v))
  have hjournal : (voidRecorded v s).journal = (s.voidLeft v).journal := (quiet_voidEnded v _).journal
  rw [hjournal]
  unfold State.voidLeft
  rw [hfilled, hcount]
  rw [voidRemoved]
  dsimp only
  rw [voidWritten_journal]
  exact ⟨hcounter, hrecords⟩

end

section
variable {v : Visit} {s : State} {n : LaneId} (h : v.laneOf = some n)
include h

theorem voidRecorded_lanes : (voidRecorded v s).lanes = (s.voidWritten v).lanes := by
  rw [voidRecorded_eq, h]
  exact (endVisitCapture_lanes n v.number _).trans (voidLeft_lanes v s)

/-- R118, R86: the PENDING cause of the visit is withdrawn. -/
theorem voidRecorded_cause {c : Cause} (hc : (s.lane n).cause = some c) (hp : c.isPending = true)
    (hv : c.kind.visit? = some v.number) :
    ((voidRecorded v s).lane n).cause = some { c with status := .withdrawn } := by
  unfold State.lane
  rw [voidRecorded_lanes h, State.voidWritten, h]
  dsimp only [onLane]
  refine withdrawLane_cause ?_ hp hv
  rw [(writeRecord_frame _ s).1]
  exact hc

/-- R118, R61: the waiting capture of the visit ends. -/
theorem voidRecorded_ends {c : Capture} (hc : (s.unit n).cap = some c)
    (ho : c.owner = .visitIn v.number ∨ c.owner = .visitOut v.number) :
    ((voidRecorded v s).unit n).cap = none ∧
      s.tells (voidRecorded v s) (.capture n c.owner (.failed .aborted)) := by
  have hwaits : ((s.voidLeft v).unit n).cap = some c := by
    unfold State.unit
    rw [voidLeft_units]
    exact hc
  obtain ⟨hcap, htold⟩ := endVisitCapture_ends hwaits ho
  rw [voidRecorded_eq, h]
  exact ⟨hcap, tells_of_yard (voidLeft_yard v s) htold⟩

end

/-! ### The work of a VOID -/

/-- R118: a WEIGH_IN visit is cancelled, another one is voided with a record. -/
def voidWork (v : Visit) (s : State) : State :=
  if v.state = .weighIn then cancelVisit v.entryLane v.number s else voidRecorded v s

section
variable {v : Visit} {s : State}

theorem voidBody_work {num : Nat} (hv : s.register.find num = some v) (hs : v.state ≠ .released) :
    voidBody num s = taken s (voidWork v s) .ok [] := by
  unfold voidBody voidWork
  rw [hv]
  dsimp only
  cases hstate : v.state with
  | weighIn | entering | onSite | weighOut => rfl
  | released => exact absurd hstate hs

theorem voidWork_cancels (h : v.state = .weighIn) : voidWork v s = cancelVisit v.entryLane v.number s := if_pos h

theorem voidWork_records (h : v.state ≠ .weighIn) : voidWork v s = voidRecorded v s := if_neg h

theorem voidWork_yard (v : Visit) (s : State) : YardOnly s (voidWork v s) := by
  unfold voidWork
  split
  · exact (quiet_cancelVisit _ _ s).yard
  · exact (work_voidRecorded v s).yard

theorem voidWork_register (v : Visit) (s : State) : (voidWork v s).register = s.register.leave v.number := by
  unfold voidWork
  split
  · exact cancelVisit_register _ _ s
  · exact voidRecorded_register v s

/-- R118: a visit of VOID's table is served by its entry lane or by its exit lane. -/
theorem laneOf_of_serving {n : LaneId} (h : (v.state = .weighIn ∨ v.state = .entering) ∧ n = v.entryLane ∨
    v.state = .weighOut ∧ v.exitLane = some n) : v.laneOf = some n := by
  unfold Visit.laneOf
  obtain ⟨hs | hs, hn⟩ | ⟨hs, hn⟩ := h
  · rw [hs, hn]
  · rw [hs, hn]
  · rw [hs]
    exact hn

theorem voidWork_ends {n : LaneId} {c : Capture} (h : v.laneOf = some n) (hc : (s.unit n).cap = some c)
    (ho : c.owner = .visitIn v.number ∨ c.owner = .visitOut v.number) :
    ((voidWork v s).unit n).cap = none ∧ s.tells (voidWork v s) (.capture n c.owner (.failed .aborted)) := by
  unfold voidWork
  split
  · rename_i hs
    rw [Visit.laneOf, hs] at h
    obtain rfl : v.entryLane = n := Option.some.inj h
    exact cancelVisit_ends hc ho
  · exact voidRecorded_ends h hc ho

end

/-! ### The requests -/

section
variable (l : LinkId) (tag : Byte) (s : State)

theorem exec_voidVisit {num : Nat} (h : num < 65536) :
    exec (.voidVisit l tag (be2 num)) s = .next (request l 0x07 tag gateOffice (some num) voidBody s) := by
  rw [← visitField_be2 num h]
  rfl

theorem exec_reclassify {num st : Nat} (h : num < 65536) (h1 : 1 ≤ st) (h2 : st ≤ 31) :
    exec (.reclassify l tag (be2 num ++ be1 st)) s =
      .next (request l 0x08 tag gateOffice (some (num, st)) reclassifyBody s) := by
  rw [← reclassifyFields_be num st h h1 h2]
  rfl

end

section
variable {s : State} {num : Nat} {v : Visit}

theorem voidBody_missing (h : s.register.find num = none) : voidBody num s = ⟨s, .noSuchVisit, []⟩ := by
  rw [voidBody, h]
  rfl

theorem voidBody_ticketed (h : s.register.find num = some v) (hs : v.state = .released) :
    voidBody num s = ⟨s, .alreadyTicketed, []⟩ := by
  rw [voidBody, h]
  dsimp only
  rw [hs]
  rfl

theorem reclassifyBody_missing {st : Nat} (h : s.register.find num = none) :
    reclassifyBody (num, st) s = ⟨s, .noSuchVisit, []⟩ := by
  rw [reclassifyBody, h]
  rfl

theorem reclassifyBody_ticketed {st : Nat} (h : s.register.find num = some v) (hs : v.state = .released) :
    reclassifyBody (num, st) s = ⟨s, .alreadyTicketed, []⟩ := by
  rw [reclassifyBody, h]
  exact if_pos hs

/-- R120: the register and the links after a RECLASSIFY. -/
def reclassifying (num st : Nat) (s : State) : State :=
  { s with register := s.register.update num (fun x => x.reclassified st)
           links := offerAll s.links (.visit num .reclassified) }

theorem reclassifyBody_takes {st : Nat} (h : s.register.find num = some v) (hs : v.state ≠ .released) :
    reclassifyBody (num, st) s = ⟨reclassifying num st s, .ok, []⟩ := by
  rw [reclassifyBody, h]
  exact if_neg hs

variable {l : LinkId} {tag : Byte} (hr : s.ready l) (hrole : gateOffice (s.link l).role = true)
include hr hrole

theorem void_closes (hv : s.register.find num = some v) (hs : v.state ≠ .released) :
    ∃ t, request l 0x07 tag gateOffice (some num) voidBody s = t ∧
      (finish s.register.mode (voidWork v (s.handling l 0x07 tag))).SameYard t ∧ t.replied l tag 0x07 .ok [] ∧
      ∀ n m, ((s.handling l 0x07 tag).link m).told
          ((finish s.register.mode (voidWork v (s.handling l 0x07 tag))).link m) n → (s.link m).told (t.link m) n :=
  request_closes hr hrole (voidWork_yard v _) (voidBody_work (s := s.handling l 0x07 tag) hv hs)

theorem reclassify_takes {st : Nat} (hv : s.register.find num = some v) (hs : v.state ≠ .released) :
    ∃ u, request l 0x08 tag gateOffice (some (num, st)) reclassifyBody s = u ∧ u.replied l tag 0x08 .ok [] ∧
      u.register = s.register.update num (fun x => x.reclassified st) ∧ s.tells u (.visit num .reclassified) := by
  obtain ⟨hanswer, hreplied⟩ := request_answer hr 0x08 tag gateOffice (num, st) reclassifyBody hrole _
    (reclassifyBody_takes (s := s.handling l 0x08 tag) hv hs)
    (yard_request (quiet_registerTold (s.handling l 0x08 tag) _ _).yard l)
  refine ⟨_, hanswer, hanswer ▸ hreplied, rfl, tells_answered (code := 0x08) (tag := tag) ?_ _⟩
  exact fun lk => told_offerAll _ _ lk (fun w e => by cases e)

end

/-- Settles O36: what is refused leaves the state, and what is done stands at the close of the event. -/
theorem voidAndReclassifyActByVisitState : Obligations.VoidAndReclassifyActByVisitState := by
  intro s l tag num st hr hrole hnum h1 h2
  refine ⟨_, _, exec_voidVisit l tag s hnum, exec_reclassify l tag s hnum h1 h2, fun hnone => ?_, fun v hv => ?_⟩
  · obtain ⟨hvoid, hkept⟩ := request_unmoved (tag := tag) hr hrole
      (voidBody_missing (s := s.handling l 0x07 tag) hnone)
    obtain ⟨hstream, hstays⟩ := request_unmoved (tag := tag) hr hrole
      (reclassifyBody_missing (s := s.handling l 0x08 tag) (st := st) hnone)
    exact ⟨hvoid, hkept, hstream, hstays⟩
  obtain ⟨_, rfl⟩ := find_some hv
  refine ⟨fun hs => ?_, fun hs => ?_, fun hs => ?_, fun n hn => ?_, fun hs => ?_⟩
  · obtain ⟨hvoid, hkept⟩ := request_unmoved (tag := tag) hr hrole
      (voidBody_ticketed (s := s.handling l 0x07 tag) hv hs)
    obtain ⟨hstream, hstays⟩ := request_unmoved (tag := tag) hr hrole
      (reclassifyBody_ticketed (s := s.handling l 0x08 tag) (st := st) hv hs)
    exact ⟨hvoid, hkept, hstream, hstays⟩
  · obtain ⟨t, hrequest, ht, hreplied, _⟩ := void_closes (tag := tag) hr hrole hv hs
    obtain ⟨u, hasked, hanswered, hregister, htold⟩ := reclassify_takes (tag := tag) (st := st) hr hrole hv hs
    obtain ⟨hvisits, hbindings⟩ := finish_left s.register.mode (voidWork_register v (s.handling l 0x07 tag))
    rw [hrequest, hasked, ht.register, hregister]
    refine ⟨hreplied, hvisits, fun n => ?_, hanswered, find_update_self _ (fun _ h => h) hv, rfl, htold⟩
    rw [ht.bound, hbindings]
    exact unbound_leave _ _ n
  · obtain ⟨t, hrequest, ht, _, htold⟩ := void_closes (tag := tag) hr hrole hv (by rw [hs]; decide)
    rw [hrequest]
    rw [voidWork_cancels hs] at ht htold
    refine ⟨?_, fun lk => htold _ lk (tells_finish _ (fun w e => by cases e) (cancelVisit_told _ _ _) lk)⟩
    rw [ht.records, (finish_records _ _).1, (quiet_cancelVisit _ _ _).journal]
    rfl
  · have hlane := laneOf_of_serving hn
    have hreleased : v.state ≠ .released := by
      obtain ⟨hs | hs, _⟩ | ⟨hs, _⟩ := hn <;> rw [hs] <;> decide
    obtain ⟨t, hrequest, ht, _, htold⟩ := void_closes (tag := tag) hr hrole hv hreleased
    rw [hrequest]
    refine ⟨fun hs c hc hp hk => ?_, fun c hc ho => ?_⟩
    · rw [ht.lane, (finish_lane_arm _ _ n).1, voidWork_records hs]
      exact voidRecorded_cause hlane hc hp hk
    · obtain ⟨hcap, hended⟩ := voidWork_ends (s := s.handling l 0x07 tag) hlane hc ho
      exact ⟨by rw [ht.unit]; exact finish_unit_cap _ hcap,
        fun lk => htold _ lk (tells_finish _ (fun w e => by cases e) hended lk)⟩
  · have hstate : v.state ≠ .weighIn ∧ v.state ≠ .released := by
      obtain hs | hs | hs := hs <;> rw [hs] <;> decide
    obtain ⟨t, hrequest, ht, _, htold⟩ := void_closes (tag := tag) hr hrole hv hstate.2
    rw [hrequest]
    rw [voidWork_records hstate.1] at ht htold
    refine ⟨fun lk => htold _ lk (tells_finish _ (fun w e => by cases e) (voidRecorded_told _ _) lk), fun c hc => ?_⟩
    rw [ht.counter, ht.records, (finish_records _ _).1, (finish_records _ _).2]
    exact voidRecorded_records v (s.handling l 0x07 tag) hc

end Sys2Proof.Machine
end

section
/-! PROOF. What FORCE_CLOSED does with the visits of the yard (R125, R126, R48, R61, R86, R105, R106, R115): each visit's
turn, and what no other turn touches. -/

namespace Sys2Proof.Machine

/-! ### An aborted capture and the visits -/

/-- R106: the visit that the outcome of a capture changes, where its lane is bound to it. -/
def Capture.reaches (c : Capture) (x : Visit) : Prop :=
  c.owner = .visitIn x.number ∧ x.state = .weighIn ∨ c.owner = .visitOut x.number ∧ x.state = .weighOut

theorem Capture.reaches.owned {c : Capture} {x : Visit} (h : c.reaches x) :
    c.owner = .visitIn x.number ∨ c.owner = .visitOut x.number := by
  obtain ⟨ho, _⟩ | ⟨ho, _⟩ := h
  · exact .inl ho
  · exact .inr ho

/-- R105, R106, R115: an aborted capture changes nothing in the register but the one visit it reaches. -/
theorem endCapture_aborted_register (d : DeckId) (s : State) :
    (endCapture d (.failed .aborted) s).register = s.register ∨
      ∃ c x, (s.unit d).cap = some c ∧ s.register.find x.number = some x ∧ s.bound d = some x.number ∧ c.reaches x ∧
        ((endCapture d (.failed .aborted) s).register =
            s.register.update x.number (fun y => y.failedIn .aborted) ∨
          (endCapture d (.failed .aborted) s).register =
            (s.register.update x.number (fun y => y.failedOut .aborted)).unbind x.number) := by
  unfold endCapture
  split
  · exact .inl rfl
  · rename_i c hc
    unfold handOutcome
    cases ho : c.owner with
    | visitIn v =>
      dsimp only
      split
      · exact .inl rfl
      · rename_i x hx
        obtain ⟨_, rfl⟩ := find_some hx
        split
        · rename_i hs
          exact .inr ⟨c, x, hc, hx, hs.2, .inl ⟨ho, hs.1⟩, .inl rfl⟩
        · exact .inl rfl
    | visitOut v =>
      dsimp only
      split
      · exact .inl rfl
      · rename_i x hx
        obtain ⟨_, rfl⟩ := find_some hx
        split
        · rename_i hs
          exact .inr ⟨c, x, hc, hx, hs.2, .inr ⟨ho, hs.1⟩, .inr rfl⟩
        · exact .inl rfl
    | spot l => exact .inl rfl

/-- A visit's record and its bindings are the same in two registers. -/
def Register.keepsVisit (r r' : Register) (v : Nat) : Prop :=
  r'.find v = r.find v ∧ ∀ n, r'.bindings.get n = some v ↔ r.bindings.get n = some v

theorem unbind_keepsVisit {r : Register} {v w : Nat} (h : v ≠ w) : r.keepsVisit (r.unbind w) v := by
  refine ⟨rfl, fun n => ?_⟩
  rw [unbind_get]
  split
  · rename_i hw
    rw [hw]
    exact ⟨(nomatch ·), fun e => absurd (Option.some.inj e).symm h⟩
  · rfl

/-- An aborted capture that does not reach a visit keeps it. -/
theorem endCapture_keepsVisit {d : DeckId} {s : State} {v : Nat}
    (h : ∀ c x, (s.unit d).cap = some c → s.register.find v = some x → s.bound d = some v → ¬c.reaches x) :
    s.register.keepsVisit (endCapture d (.failed .aborted) s).register v := by
  obtain e | ⟨c, x, hc, hx, hb, hreaches, e⟩ := endCapture_aborted_register d s
  · rw [e]
    exact ⟨rfl, fun _ => Iff.rfl⟩
  · have hother : v ≠ x.number := by
      rintro rfl
      exact h c x hc hx hb hreaches
    obtain e | e := e
    · rw [e]
      exact ⟨find_update_ne _ (fun _ hy => hy) hother, fun _ => Iff.rfl⟩
    · rw [e]
      obtain ⟨_, hbound⟩ := unbind_keepsVisit
        (r := s.register.update x.number (fun y => y.failedOut .aborted)) hother
      exact ⟨find_update_ne (r := s.register) _ (fun _ hy => hy) hother, hbound⟩

/-! ### A visit that no waiting capture reaches -/

/-- A visit of the register with its lanes, and no capture that waits on one of them reaches it. -/
structure State.settled (s : State) (x : Visit) (b : LaneId → Prop) : Prop where
  found : s.register.find x.number = some x
  bound : ∀ n, s.bound n = some x.number ↔ b n
  unheard : ∀ n c, b n → (s.unit n).cap = some c → ¬c.reaches x

section
variable {s t : State} {x : Visit} {b : LaneId → Prop}

theorem State.settled.of_same (h : s.settled x b) (hvisits : t.register.visits = s.register.visits)
    (hbindings : t.register.bindings = s.register.bindings) (hunits : t.units = s.units) : t.settled x b := by
  obtain ⟨hfound, hbound, hunheard⟩ := h
  refine ⟨?_, ?_, ?_⟩
  · unfold Register.find
    rw [hvisits]
    exact hfound
  · unfold State.bound
    rw [hbindings]
    exact hbound
  · unfold State.unit
    rw [hunits]
    exact hunheard

theorem State.settled.endCapture (h : s.settled x b) (d : DeckId) :
    (endCapture d (.failed .aborted) s).settled x b := by
  obtain ⟨hfound, hbound⟩ := endCapture_keepsVisit (d := d) (s := s) (v := x.number) (fun c y hc hy hb => by
    obtain rfl := Option.some.inj (hy.symm.trans h.found)
    exact h.unheard d c ((h.bound d).mp hb) hc)
  obtain ⟨hidle, _, _, _, hunits, _⟩ := endCapture_frame d (.failed .aborted) s
  refine ⟨hfound.trans h.found, fun n => (hbound n).trans (h.bound n), fun n c hn hc => ?_⟩
  by_cases e : n = d
  · subst e
    exact absurd (hidle.symm.trans hc) (nomatch ·)
  · rw [hunits n e] at hc
    exact h.unheard n c hn hc

end

/-! ### Work that only ends captures and withdraws causes -/

/-- R125: the yard winds down: captures only end, settled visits stay, and no cause that is not PENDING changes. -/
structure State.windsDown (s t : State) : Prop where
  yard : YardOnly s t
  idle : ∀ d, (s.unit d).cap = none → (t.unit d).cap = none
  settled : ∀ x b, s.settled x b → t.settled x b
  causes : ∀ n c, (s.lane n).cause = some c → c.isPending = false → (t.lane n).cause = some c
  numbers : t.register.visits.map (·.number) = s.register.visits.map (·.number)

theorem State.windsDown.refl (s : State) : s.windsDown s :=
  ⟨.refl s, fun _ h => h, fun _ _ h => h, fun _ _ h _ => h, rfl⟩

theorem State.windsDown.trans {a b c : State} (h : a.windsDown b) (h' : b.windsDown c) : a.windsDown c :=
  ⟨h.yard.trans h'.yard, fun d hd => h'.idle d (h.idle d hd), fun x p hx => h'.settled x p (h.settled x p hx),
    fun n k hk hp => h'.causes n k (h.causes n k hk hp) hp, h'.numbers.trans h.numbers⟩

theorem windsDown_foldl {α : Type} {f : State → α → State} (h : ∀ (u : State) a, u.windsDown (f u a)) (xs : List α)
    (s : State) : s.windsDown (xs.foldl f s) := by
  induction xs generalizing s with
  | nil => exact .refl s
  | cons a xs ih => exact (h s a).trans (ih _)

theorem windsDown_of_same {s t : State} (hyard : YardOnly s t) (hvisits : t.register.visits = s.register.visits)
    (hbindings : t.register.bindings = s.register.bindings) (hunits : t.units = s.units)
    (hcauses : ∀ n c, (s.lane n).cause = some c → c.isPending = false → (t.lane n).cause = some c) :
    s.windsDown t where
  yard := hyard
  idle := fun d hd => by
    unfold State.unit
    rw [hunits]
    exact hd
  settled := fun _ _ h => h.of_same hvisits hbindings hunits
  causes := hcauses
  numbers := by rw [hvisits]

theorem windsDown_endCapture (d : DeckId) (s : State) : s.windsDown (endCapture d (.failed .aborted) s) := by
  obtain ⟨hidle, _, _, _, hunits, _⟩ := endCapture_frame d (.failed .aborted) s
  refine ⟨yard_endCapture d _ s, fun e he => ?_, fun x b h => h.endCapture d, fun n c hc _ => ?_,
    endCapture_aborted_numbers d s⟩
  · by_cases h : e = d
    · subst h
      exact hidle
    · rw [hunits e h]
      exact he
  · unfold State.lane
    rw [(endCapture_failed d .aborted s).1]
    exact hc

theorem windsDown_endVisitCapture (d : DeckId) (v : Nat) (s : State) : s.windsDown (endVisitCapture d v s) := by
  obtain e | ⟨_, _, _, e⟩ := endVisitCapture_cases d v s
  · rw [e]
    exact .refl s
  · rw [e]
    exact windsDown_endCapture d s

/-- R86: a cause that is not PENDING, or is of another visit, stays. -/
theorem withdrawLane_cause_kept {n m : LaneId} {v : Nat} {s : State} {c : Cause} (hc : (s.lane m).cause = some c)
    (h : c.isPending = false ∨ c.kind.visit? ≠ some v) : ((withdrawLane n v s).lane m).cause = some c := by
  unfold withdrawLane
  by_cases e : m = n
  · subst e
    obtain ⟨_, _, _, _, _, _, _, hstays, _⟩ := withdraw_spec (s.lane m) (fun c => c.kind.visit? == some v)
    have hnone : (s.lane m).pendingCause (fun c => c.kind.visit? == some v) = false := by
      unfold Lane.pendingCause
      rw [hc]
      obtain h | h := h <;> simp [h]
    rw [applyLane_lane_self, Lane.withdrawVisit, hstays hnone]
    exact hc
  · rw [applyLane_lane_ne _ _ e]
    exact hc

theorem windsDown_withdrawLane (n : LaneId) (v : Nat) (s : State) : s.windsDown (withdrawLane n v s) :=
  windsDown_of_same (yard_withdrawLane n v s) (by rw [withdrawLane_register]) (by rw [withdrawLane_register])
    (withdrawLane_units n v s) (fun _ _ hc hp => withdrawLane_cause_kept hc (.inl hp))

theorem windsDown_forceVisit (v : Visit) (s : State) : s.windsDown (forceVisit v s) := by
  unfold forceVisit
  cases v.state with
  | weighIn | weighOut =>
    dsimp only
    cases v.laneOf with
    | none => exact .refl s
    | some n => exact windsDown_endVisitCapture n v.number s
  | entering | released =>
    dsimp only
    cases v.laneOf with
    | none => exact .refl s
    | some n => exact windsDown_withdrawLane n v.number s
  | onSite => exact .refl s

/-! ### The decks put to sleep -/

theorem windsDown_deckSleep (d : DeckId) (s : State) : s.windsDown (deckChange d .sleep .none s) :=
  (windsDown_of_same (t := enterDeck d .sleep .none s) (yard_enterDeck d _ _ s) rfl rfl rfl (fun _ _ h _ => h)).trans
    (windsDown_endCapture d _)

theorem windsDown_becomeClosed (s : State) : s.windsDown (becomeClosed s) :=
  becomeClosed_keeps (fun u => s.windsDown u)
    (windsDown_of_same (yard_register s _) rfl rfl rfl (fun _ _ h _ => h))
    (fun u d h _ => h.trans (windsDown_deckSleep d u))

theorem becomeClosed_mode (s : State) : (becomeClosed s).register.mode = .closed :=
  becomeClosed_keeps (fun u => u.register.mode = .closed) rfl
    (fun u d h _ => (endCapture_failed_mode d .aborted (enterDeck d .sleep .none u)).trans h)

/-- R48: a deck that is ACTIVE or WARMING is put to sleep. -/
def sleepIfAwake (s : State) (d : DeckId) : State :=
  if (s.deck d).state = .active ∨ (s.deck d).state = .warming then deckChange d .sleep .none s else s

theorem becomeClosed_eq (s : State) :
    becomeClosed s = allDecks.foldl sleepIfAwake { s with register := { s.register with mode := .closed } } := rfl

/-- R48: the state that the closing of the yard leaves a deck in. -/
def DeckState.closed (k : DeckState) : DeckState := if k = .active ∨ k = .warming then .sleep else k

theorem closed_closed (k : DeckState) : k.closed.closed = k.closed := by cases k <;> rfl

theorem sleepIfAwake_state_self (s : State) (d : DeckId) :
    ((sleepIfAwake s d).deck d).state = (s.deck d).state.closed := by
  unfold sleepIfAwake DeckState.closed
  split
  · rw [(deckChange_frame d .sleep .none s).1]
    exact (entered_frame _ _ _).1
  · rfl

theorem sleepIfAwake_deck_ne {s : State} {d e : DeckId} (h : e ≠ d) : (sleepIfAwake s d).deck e = s.deck e := by
  unfold sleepIfAwake
  split
  · obtain ⟨_, hother, _⟩ := deckChange_frame d .sleep .none s
    exact hother e h
  · rfl

theorem foldl_sleepIfAwake_state (ds : List DeckId) (s : State) (e : DeckId) :
    ((ds.foldl sleepIfAwake s).deck e).state = if e ∈ ds then (s.deck e).state.closed else (s.deck e).state := by
  induction ds generalizing s with
  | nil => rfl
  | cons d ds ih =>
    rw [List.foldl_cons, ih]
    by_cases h : e = d
    · subst h
      rw [sleepIfAwake_state_self, closed_closed, ite_self, if_pos (List.mem_cons_self ..)]
    · rw [sleepIfAwake_deck_ne h]
      simp [h]

theorem becomeClosed_state (s : State) (d : DeckId) :
    ((becomeClosed s).deck d).state = (s.deck d).state.closed := by
  have hall : d ∈ allDecks := by
    revert d
    decide
  rw [becomeClosed_eq, foldl_sleepIfAwake_state, if_pos hall]
  rfl

end Sys2Proof.Machine
end

section
/-! PROOF. SET_YARD_MODE (R123 to R126, R48): what each asked mode does by the mode that stands, and what FORCE_CLOSED
leaves of each visit. -/

namespace Sys2Proof.Machine

/-! ### The turn of one visit in FORCE_CLOSED -/

theorem forceOrder_mem {r : Register} {v : Visit} : v ∈ r.forceOrder ↔ v ∈ r.visits ∧ v.state ≠ .onSite := by
  unfold Register.forceOrder
  simp only [List.mem_flatMap, List.mem_filter, beq_iff_eq]
  constructor
  · rintro ⟨st, hst, hv, rfl⟩
    refine ⟨hv, fun e => ?_⟩
    rw [e] at hst
    exact absurd hst (by decide)
  · rintro ⟨hv, hs⟩
    refine ⟨v.state, ?_, hv, rfl⟩
    cases h : v.state with
    | onSite => exact absurd h hs
    | weighIn | entering | weighOut | released => decide

/-- Before a visit's turn come turns of other numbers only. -/
theorem forceOrder_split {r : Register} {v : Visit} (hd : r.distinct) (hv : v ∈ r.visits) (hs : v.state ≠ .onSite) :
    ∃ pre post, r.forceOrder = pre ++ v :: post ∧ ∀ w ∈ pre, w.number ≠ v.number := by
  obtain ⟨pre, post, e, hpre⟩ := List.eq_append_cons_of_mem (forceOrder_mem.mpr ⟨hv, hs⟩)
  refine ⟨pre, post, e, fun w hw hn => hpre ?_⟩
  have hmem : w ∈ r.visits := (forceOrder_mem.mp (e ▸ List.mem_append_left _ hw)).1
  have hfound := find_of_mem hd hmem
  rw [hn, find_of_mem hd hv] at hfound
  exact Option.some.inj hfound ▸ hw

/-- R125: what holds until a visit's turn, and what its turn brings about and no winding down undoes, holds once the yard
is closed. -/
theorem forceClosed_turn {P Q : State → Prop} {s : State} {v : Visit} (hd : s.register.distinct)
    (hv : v ∈ s.register.visits) (hs : v.state ≠ .onSite)
    (hpre : ∀ w u, w.number ≠ v.number → P u → P (forceVisit w u)) (hturn : ∀ u, P u → Q (forceVisit v u))
    (hpost : ∀ u t : State, u.windsDown t → Q u → Q t) (h : P s) : Q (forceClosed s) := by
  obtain ⟨pre, post, e, hothers⟩ := forceOrder_split hd hv hs
  have hbefore : ∀ u, P u → P (pre.foldl (fun s v => forceVisit v s) u) := by
    clear e h
    induction pre with
    | nil => exact fun _ hu => hu
    | cons w pre ih =>
      rw [List.forall_mem_cons] at hothers
      exact fun u hu => ih hothers.2 _ (hpre w u hothers.1 hu)
  unfold forceClosed
  rw [e, List.foldl_append, List.foldl_cons]
  exact hpost _ _ ((windsDown_foldl (fun u w => windsDown_forceVisit w u) post _).trans (windsDown_becomeClosed _))
    (hturn _ (hbefore s h))

theorem windsDown_forceClosed (s : State) : s.windsDown (forceClosed s) :=
  (windsDown_foldl (fun u v => windsDown_forceVisit v u) _ s).trans (windsDown_becomeClosed _)

theorem forceVisit_decks (v : Visit) (s : State) : (forceVisit v s).decks = s.decks := by
  have hwithdraw : ∀ n u, (withdrawLane n v.number u).decks = u.decks := fun n u => by
    unfold withdrawLane
    rw [(applyLane_frame n _ u).1]
  unfold forceVisit
  cases v.state with
  | weighIn | weighOut => exact onLane_keeps State.decks (fun n u => endVisitCapture_decks n v.number u) _ s
  | entering | released => exact onLane_keeps State.decks hwithdraw _ s
  | onSite => rfl

/-- R48: the decks once the yard is closed. -/
theorem forceClosed_state (s : State) (d : DeckId) : ((forceClosed s).deck d).state = (s.deck d).state.closed := by
  have hdecks : ∀ (vs : List Visit) (u : State), (vs.foldl (fun s v => forceVisit v s) u).decks = u.decks := by
    intro vs
    induction vs with
    | nil => exact fun _ => rfl
    | cons v vs ih => exact fun u => (ih _).trans (forceVisit_decks v u)
  unfold forceClosed
  rw [becomeClosed_state]
  exact congrArg (fun ks : Vector Deck 4 => (ks.get d).state.closed) (hdecks _ s)

/-! ### The turn of a visit that is being weighed -/

/-- A visit of the register bound to one lane, whose unit holds a capture. -/
structure State.weighs (s : State) (n : LaneId) (c : Capture) (v : Visit) : Prop where
  found : s.register.find v.number = some v
  bound : ∀ m, s.bound m = some v.number ↔ m = n
  waits : (s.unit n).cap = some c

section
variable {s : State} {n : LaneId} {c : Capture} {v : Visit}

theorem State.weighs.of_same {t : State} (h : s.weighs n c v) (hr : t.register = s.register) (hu : t.units = s.units) :
    t.weighs n c v := by
  obtain ⟨hfound, hbound, hwaits⟩ := h
  refine ⟨?_, ?_, ?_⟩
  · rw [hr]
    exact hfound
  · unfold State.bound
    rw [hr]
    exact hbound
  · unfold State.unit
    rw [hu]
    exact hwaits

/-- R106: the end of another visit's capture. -/
theorem State.weighs.endVisitCapture (h : s.weighs n c v) (hc : c.reaches v) {w : Nat} (hw : w ≠ v.number)
    (d : LaneId) : (endVisitCapture d w s).weighs n c v := by
  obtain e | ⟨k, hk, ho, e⟩ := endVisitCapture_cases d w s
  · rw [e]
    exact h
  · have hne : n ≠ d := by
      rintro rfl
      obtain rfl := Option.some.inj (h.waits.symm.trans hk)
      obtain hv | hv := hc.owned <;> rw [hv] at ho <;> obtain ho | ho := ho <;> cases ho <;> exact hw rfl
    obtain ⟨hfound, hbound⟩ := endCapture_keepsVisit (d := d) (s := s) (v := v.number)
      (fun _ _ _ _ hb => absurd ((h.bound d).mp hb).symm hne)
    obtain ⟨_, _, _, _, hunits, _⟩ := endCapture_frame d (.failed .aborted) s
    rw [e]
    exact ⟨hfound.trans h.found, fun m => (hbound m).trans (h.bound m), by rw [hunits n hne]; exact h.waits⟩

theorem State.weighs.forceVisit (h : s.weighs n c v) (hc : c.reaches v) {w : Visit} (hw : w.number ≠ v.number) :
    (forceVisit w s).weighs n c v := by
  unfold Machine.forceVisit
  cases w.state with
  | weighIn | weighOut =>
    dsimp only
    cases w.laneOf with
    | none => exact h
    | some d => exact h.endVisitCapture hc hw d
  | entering | released =>
    dsimp only
    cases w.laneOf with
    | none => exact h
    | some d => exact h.of_same (withdrawLane_register d w.number s) (withdrawLane_units d w.number s)
  | onSite => exact h

theorem forceVisit_weighing (h : s.weighs n c v) (hc : c.reaches v) (hlane : v.laneOf = some n) :
    forceVisit v s = endCapture n (.failed .aborted) s := by
  have hended := endVisitCapture_owned h.waits hc.owned
  unfold forceVisit
  obtain ⟨_, hs⟩ | ⟨_, hs⟩ := hc <;> rw [hs, hlane] <;> exact hended

end

/-- R61, R125: a weighing that an event ends: the visit settled, its unit IDLE and the end told. -/
structure State.weighingEnded (s t : State) (n : LaneId) (c : Capture) (x : Visit) (b : LaneId → Prop) : Prop where
  settled : t.settled x b
  idle : (t.unit n).cap = none
  told : s.tells t (.capture n c.owner (.failed .aborted))

theorem State.weighingEnded.windsDown {s u t : State} {n : LaneId} {c : Capture} {x : Visit} {b : LaneId → Prop}
    (h : s.weighingEnded u n c x b) (hw : u.windsDown t) : s.weighingEnded t n c x b :=
  ⟨hw.settled x b h.settled, hw.idle n h.idle, tells_then (fun w e => by cases e) h.told hw.yard⟩

section
variable {s : State} {n : LaneId} {c : Capture} {v : Visit}

theorem endCapture_weighing (h : s.weighs n c v) (hc : c.reaches v) :
    ((endCapture n (.failed .aborted) s).unit n).cap = none ∧
      s.tells (endCapture n (.failed .aborted) s) (.capture n c.owner (.failed .aborted)) := by
  obtain ⟨hidle, _⟩ := endCapture_frame n (.failed .aborted) s
  refine ⟨hidle, (endCapture_told n _ s c h.waits).1 ?_⟩
  obtain ho | ho := hc.owned <;> rw [ho] <;> exact fun e => by cases e

/-- R105: the entry weighing aborted; the visit is bound as it was. -/
theorem endCapture_weighIn (h : s.weighs n c v) (ho : c.owner = .visitIn v.number) (hs : v.state = .weighIn) :
    s.weighingEnded (endCapture n (.failed .aborted) s) n c (v.failedIn .aborted) (· = n) := by
  obtain ⟨hidle, htold⟩ := endCapture_weighing h (.inl ⟨ho, hs⟩)
  have hregister := endCapture_visitIn_failed (why := .aborted) (by decide) h.waits ho h.found hs
    ((h.bound n).mpr rfl)
  refine ⟨⟨?_, ?_, ?_⟩, hidle, htold⟩
  · rw [hregister]
    exact find_update_self (r := s.register) _ (fun _ hy => hy) h.found
  · unfold State.bound
    rw [hregister]
    exact h.bound
  · intro m k e hk
    rw [show m = n from e] at hk
    exact absurd (hidle.symm.trans hk) (nomatch ·)

/-- R115: the exit weighing aborted; the visit is bound to no lane. -/
theorem endCapture_weighOut (h : s.weighs n c v) (ho : c.owner = .visitOut v.number) (hs : v.state = .weighOut) :
    s.weighingEnded (endCapture n (.failed .aborted) s) n c (v.failedOut .aborted) (fun _ => False) := by
  obtain ⟨hidle, htold⟩ := endCapture_weighing h (.inr ⟨ho, hs⟩)
  have hregister := endCapture_visitOut_failed .aborted h.waits ho h.found hs ((h.bound n).mpr rfl)
  refine ⟨⟨?_, ?_, ?_⟩, hidle, htold⟩
  · rw [hregister]
    exact find_update_self (r := s.register) _ (fun _ hy => hy) h.found
  · intro m
    unfold State.bound
    rw [hregister, unbind_get]
    refine ⟨fun e => ?_, False.elim⟩
    split at e
    · cases e
    · exact absurd e ‹_›
  · exact fun _ _ hb => hb.elim

/-- R125: a visit that is being weighed on the lane it is bound to, once the yard is closed. -/
theorem forceClosed_weighing {x : Visit} {b : LaneId → Prop} (hd : s.register.distinct) (hv : v ∈ s.register.visits)
    (h : s.weighs n c v) (hc : c.reaches v) (hlane : v.laneOf = some n)
    (hends : ∀ u : State, u.weighs n c v → u.weighingEnded (endCapture n (.failed .aborted) u) n c x b) :
    s.weighingEnded (forceClosed s) n c x b := by
  have hs : v.state ≠ .onSite := by
    obtain ⟨_, hs⟩ | ⟨_, hs⟩ := hc <;> rw [hs] <;> decide
  refine forceClosed_turn (P := fun u => YardOnly s u ∧ u.weighs n c v)
    (Q := fun u => s.weighingEnded u n c x b) hd hv hs ?_ ?_ (fun u t hw hu => hu.windsDown hw) ⟨.refl s, h⟩
  · exact fun w u hw ⟨hyard, hu⟩ => ⟨hyard.trans (quiet_forceVisit w u).yard, hu.forceVisit hc hw⟩
  · intro u ⟨hyard, hu⟩
    rw [forceVisit_weighing hu hc hlane]
    obtain ⟨hsettled, hidle, htold⟩ := hends u hu
    exact ⟨hsettled, hidle, tells_of_yard hyard htold⟩

end

/-! ### The turn of a visit that waits for its passage -/

section
variable {s : State} {n : LaneId} {c : Cause} {v : Visit}

theorem forceVisit_cause_kept {w : Visit} (hw : c.kind.visit? ≠ some w.number) (h : (s.lane n).cause = some c) :
    ((forceVisit w s).lane n).cause = some c := by
  unfold forceVisit
  cases w.state with
  | weighIn | weighOut =>
    unfold State.lane
    dsimp only
    rw [onLane_keeps State.lanes (fun n u => endVisitCapture_lanes n w.number u)]
    exact h
  | entering | released =>
    dsimp only
    cases w.laneOf with
    | none => exact h
    | some d => exact withdrawLane_cause_kept h (.inr hw)
  | onSite => exact h

/-- R125, R86: the PENDING cause of an ENTERING or RELEASED visit, once the yard is closed. -/
theorem forceClosed_cause (hd : s.register.distinct) (hv : v ∈ s.register.visits)
    (hs : v.state = .entering ∨ v.state = .released) (hlane : v.laneOf = some n) (hc : (s.lane n).cause = some c)
    (hp : c.isPending = true) (hk : c.kind.visit? = some v.number) :
    ((forceClosed s).lane n).cause = some { c with status := .withdrawn } := by
  refine forceClosed_turn (P := fun u => (u.lane n).cause = some c)
    (Q := fun u => (u.lane n).cause = some { c with status := .withdrawn }) hd hv ?_ ?_ ?_ ?_ hc
  · obtain hs | hs := hs <;> rw [hs] <;> decide
  · intro w u hw hu
    exact forceVisit_cause_kept (by rw [hk]; exact fun e => hw (Option.some.inj e).symm) hu
  · intro u hu
    have hwithdrawn := withdrawLane_cause hu hp hk
    unfold forceVisit
    obtain hs | hs := hs <;> rw [hs, hlane] <;> exact hwithdrawn
  · exact fun u t hw hu => hw.causes n _ hu rfl

end

end Sys2Proof.Machine
end

section
/-! PROOF. SET_YARD_MODE as a request (R123 to R126, R48): the mode that the close of the event leaves and tells, and the
visits of a FORCE_CLOSED one by one. -/

namespace Sys2Proof.Machine

/-! ### The mode at the close of an event -/

/-- R126: a mode that an event has changed is told. -/
theorem finish_told_mode {u : State} {m : YardMode} (h : (finish m u).register.mode ≠ m) :
    u.tells (finish m u) (.yard (finish m u).register.mode) := by
  obtain ⟨_, _, _, _, _, hregister, _⟩ := announceMode_frame m (showLanes (judgeEmpty (judgeLow (autoClose u))))
  have hchanged : (showLanes (judgeEmpty (judgeLow (autoClose u)))).register.mode ≠ m := by
    rw [← hregister]
    exact h
  have hyard : YardOnly u (showLanes (judgeEmpty (judgeLow (autoClose u)))) :=
    (((yard_autoClose u).trans (yard_judgeLow _)).trans (yard_judgeEmpty _)).trans (yard_showLanes _)
  unfold finish announceMode
  rw [if_neg hchanged]
  exact tells_of_yard hyard (fun lk => told_offerAll _ _ lk (fun w e => by cases e))

theorem closingHolds_of_mode {u : State} (h : u.register.mode ≠ .closing) : u.closingHolds := fun e => absurd e h

/-- R124, R48: a CLOSING yard without a visit closes with the event, and its decks sleep. -/
theorem finish_closing_empty (m : YardMode) {u : State} (hm : u.register.mode = .closing) (hv : u.register.visits = []) :
    (finish m u).register.mode = .closed ∧
      ∀ d, ((finish m u).deck d).state = (u.deck d).state.closed := by
  have hcloses : autoClose u = becomeClosed u := by
    unfold autoClose
    exact if_pos ⟨hm, List.isEmpty_iff.mpr hv⟩
  obtain ⟨_, _, _, hregister, _, hdeck, _⟩ := finish_parts m u _ hcloses
  refine ⟨by rw [hregister, becomeClosed_mode], fun d => ?_⟩
  rw [hdeck, (judgedFrom_state (judgeEmpty_judgedFrom _ _)).1, becomeClosed_state]

theorem yard_withMode (u : State) (y : YardMode) : YardOnly u (u.withMode y) := yard_register u _

theorem forceClosed_mode (s : State) : (forceClosed s).register.mode = .closed := by
  unfold forceClosed
  exact becomeClosed_mode _

theorem closed_not_awake (k : DeckState) : k.closed ≠ .active ∧ k.closed ≠ .warming := by
  cases k <;> decide

/-! ### The request -/

section
variable {s : State}

theorem yardModeBody_of_opened (h : s.register.mode = .opened) :
    yardModeBody .opened s = ⟨s, .ok, []⟩ ∧
      yardModeBody .closing s = taken s (s.withMode .closing) .ok [] := by
  unfold yardModeBody
  rw [h]
  exact ⟨rfl, rfl⟩

theorem yardModeBody_of_closing (h : s.register.mode = .closing) :
    yardModeBody .opened s = taken s (s.withMode .opened) .ok [] ∧ yardModeBody .closing s = ⟨s, .ok, []⟩ := by
  unfold yardModeBody
  rw [h]
  exact ⟨rfl, rfl⟩

theorem yardModeBody_of_closed (h : s.register.mode = .closed) :
    yardModeBody .opened s =
        (if s.clock.isSet && s.journal.counter.isSome then taken s (s.withMode .opened) .ok []
          else ⟨s, .clockUnset, []⟩) ∧
      yardModeBody .closing s = ⟨s, .wrongState, []⟩ ∧ yardModeBody .forceClosed s = ⟨s, .wrongState, []⟩ := by
  unfold yardModeBody
  rw [h]
  exact ⟨rfl, rfl, rfl⟩

theorem yardModeBody_force (h : s.register.mode ≠ .closed) :
    yardModeBody .forceClosed s = taken s (forceClosed s) .ok [] := by
  unfold yardModeBody
  cases hm : s.register.mode with
  | opened | closing => rfl
  | closed => exact absurd hm h

end

section
variable (l : LinkId) (tag : Byte) (s : State)

theorem exec_openYard :
    exec (.setYardMode l tag [1]) s = .next (request l 0x28 tag officeOnly (some .opened) yardModeBody s) := rfl

theorem exec_closeYard :
    exec (.setYardMode l tag [2]) s = .next (request l 0x28 tag officeOnly (some .closing) yardModeBody s) := rfl

theorem exec_forceYard :
    exec (.setYardMode l tag [4]) s = .next (request l 0x28 tag officeOnly (some .forceClosed) yardModeBody s) := rfl

end

section
variable {l : LinkId} {tag : Byte} {s : State} {m : ModeAsked} (hr : s.ready l)
  (hrole : officeOnly (s.link l).role = true)
include hr hrole

/-- A SET_YARD_MODE that asks for the mode that stands, or is refused. -/
theorem yardMode_kept {st : Status}
    (hb : yardModeBody m (s.handling l 0x28 tag) = ⟨s.handling l 0x28 tag, st, []⟩) :
    (request l 0x28 tag officeOnly (some m) yardModeBody s).replied l tag 0x28 st [] ∧
      s.onlyLink (request l 0x28 tag officeOnly (some m) yardModeBody s) l :=
  request_unmoved hr hrole hb

/-- A SET_YARD_MODE whose work stands at the close of its event. -/
theorem yardMode_closes {u : State} (hu : YardOnly (s.handling l 0x28 tag) u)
    (hb : yardModeBody m (s.handling l 0x28 tag) = taken (s.handling l 0x28 tag) u .ok []) :
    ∃ t, request l 0x28 tag officeOnly (some m) yardModeBody s = t ∧ t.replied l tag 0x28 .ok [] ∧
      (finish s.register.mode u).SameYard t ∧
      (t.register.mode ≠ s.register.mode → s.tells t (.yard t.register.mode)) ∧
      ∀ x, (∀ w, x ≠ .laneStatus w) → (s.handling l 0x28 tag).tells u x → s.tells t x := by
  obtain ⟨t, hrequest, ht, hreplied, htold⟩ := request_closes hr hrole hu hb
  refine ⟨t, hrequest, hreplied, ht, fun hm => ?_, fun x hx h lk => htold _ lk (tells_finish _ hx h lk)⟩
  rw [ht.register] at hm ⊢
  exact fun lk => htold _ lk (tells_of_yard hu (finish_told_mode hm) lk)

/-- R123: a plain change of mode. -/
theorem yardMode_changes {y : YardMode} (hy : y ≠ s.register.mode) (hc : (s.withMode y).closingHolds)
    (hb : yardModeBody m (s.handling l 0x28 tag) =
      taken (s.handling l 0x28 tag) ((s.handling l 0x28 tag).withMode y) .ok []) :
    (request l 0x28 tag officeOnly (some m) yardModeBody s).replied l tag 0x28 .ok [] ∧
      (request l 0x28 tag officeOnly (some m) yardModeBody s).register = { s.register with mode := y } ∧
      s.tells (request l 0x28 tag officeOnly (some m) yardModeBody s) (.yard y) := by
  obtain ⟨t, hrequest, hreplied, ht, htold, _⟩ := yardMode_closes hr hrole (yard_withMode _ y) hb
  have hregister : t.register = { s.register with mode := y } :=
    ht.register.trans (finish_register_kept s.register.mode (u := (s.handling l 0x28 tag).withMode y) hc)
  rw [hrequest]
  rw [hregister] at htold ⊢
  exact ⟨hreplied, rfl, htold hy⟩

/-- R125: the close of a FORCE_CLOSED. -/
theorem forceClosed_closes (hm : s.register.mode ≠ .closed) :
    ∃ t, request l 0x28 tag officeOnly (some .forceClosed) yardModeBody s = t ∧ t.replied l tag 0x28 .ok [] ∧
      t.register = (forceClosed (s.handling l 0x28 tag)).register ∧
      (∀ d, t.unit d = (forceClosed (s.handling l 0x28 tag)).unit d) ∧
      (∀ n, (t.lane n).cause = ((forceClosed (s.handling l 0x28 tag)).lane n).cause) ∧
      (∀ d, (t.deck d).state = (s.deck d).state.closed) ∧ t.journal.records = s.journal.records ∧
      s.tells t (.yard .closed) ∧
      ∀ x, (∀ w, x ≠ .laneStatus w) → (s.handling l 0x28 tag).tells (forceClosed (s.handling l 0x28 tag)) x →
        s.tells t x := by
  have hmode : (forceClosed (s.handling l 0x28 tag)).register.mode = .closed := forceClosed_mode _
  have hclosing : (forceClosed (s.handling l 0x28 tag)).closingHolds :=
    closingHolds_of_mode (by rw [hmode]; decide)
  obtain ⟨t, hrequest, hreplied, ht, htold, hkept⟩ := yardMode_closes hr hrole (quiet_forceClosed _).yard
    (yardModeBody_force (s := s.handling l 0x28 tag) hm)
  have hregister : t.register = (forceClosed (s.handling l 0x28 tag)).register :=
    ht.register.trans (finish_register_kept _ hclosing)
  refine ⟨t, hrequest, hreplied, hregister, fun d => (ht.unit d).trans (finish_unit _ d hclosing), fun n => ?_,
    fun d => ?_, ?_, ?_, hkept⟩
  · rw [ht.lane, (finish_lane_arm _ _ n).1]
  · rw [ht.deck, (finish_deck_waking _ hclosing).1]
    exact forceClosed_state (s.handling l 0x28 tag) d
  · rw [ht.records, (finish_records _ _).1, (quiet_forceClosed _).journal]
    rfl
  · rw [hregister, hmode] at htold
    exact htold hm.symm

end

/-! ### The visits that a FORCE_CLOSED leaves alone -/

/-- A visit that no waiting capture reaches is settled where it is. -/
theorem settled_of_unreached {s : State} {v : Visit} (hd : s.register.distinct) (hv : v ∈ s.register.visits)
    (h : ∀ n c, (s.unit n).cap = some c → ¬c.reaches v) : s.settled v (fun n => s.bound n = some v.number) :=
  ⟨find_of_mem hd hv, fun _ => Iff.rfl, fun n c _ => h n c⟩

theorem not_reaches_of_state {c : Capture} {v : Visit} (hin : v.state ≠ .weighIn) (hout : v.state ≠ .weighOut) :
    ¬c.reaches v := by
  rintro (⟨_, hs⟩ | ⟨_, hs⟩)
  · exact hin hs
  · exact hout hs

theorem forceClosed_unreached {s : State} {v : Visit} (hd : s.register.distinct) (hv : v ∈ s.register.visits)
    (h : ∀ n c, (s.unit n).cap = some c → ¬c.reaches v) :
    (forceClosed s).register.find v.number = some v ∧
      ∀ n, (forceClosed s).bound n = some v.number ↔ s.bound n = some v.number := by
  obtain ⟨hfound, hbound, _⟩ := (windsDown_forceClosed s).settled v _ (settled_of_unreached hd hv h)
  exact ⟨hfound, hbound⟩

/-- R98: a visit of a sound register that is being weighed on the lane it is bound to. -/
theorem weighs_of_bound {s : State} {n : LaneId} {c : Capture} {v : Visit} (hd : s.register.distinct)
    (ho : s.register.boundOnce) (hv : v ∈ s.register.visits) (hb : s.bound n = some v.number)
    (hc : (s.unit n).cap = some c) : s.weighs n c v := by
  obtain ⟨_, honce⟩ := ho
  refine ⟨find_of_mem hd hv, fun m => ⟨fun hm => honce m n _ hm hb, ?_⟩, hc⟩
  rintro rfl
  exact hb

/-- R118: a visit that waits for its passage is served by its entry lane or by its exit lane. -/
theorem laneOf_of_passing {n : LaneId} {v : Visit}
    (h : v.state = .entering ∧ v.entryLane = n ∨ v.state = .released ∧ v.exitLane = some n) : v.laneOf = some n := by
  unfold Visit.laneOf
  obtain ⟨hs, hn⟩ | ⟨hs, hn⟩ := h
  · rw [hs, hn]
  · rw [hs]
    exact hn

/-! ### The yard's modes -/

/-- Settles O37: each asked mode by the mode that stands, and the visits of a FORCE_CLOSED by their states. -/
theorem yardModeFollowsRequest : Obligations.YardModeFollowsRequest := by
  intro s l tag hr hoffice _
  have hrole := officeOnly_of_office hoffice
  refine ⟨_, _, _, exec_openYard l tag s, exec_closeYard l tag s, exec_forceYard l tag s, fun hm => ?_, fun hm => ?_,
    fun hm => ?_, fun hm => ?_⟩
  · obtain ⟨hsame, hclose⟩ := yardModeBody_of_opened (s := s.handling l 0x28 tag) hm
    obtain ⟨hopen, hopened⟩ := yardMode_kept hr hrole hsame
    obtain ⟨t, hrequest, hreplied, ht, htold, _⟩ := yardMode_closes hr hrole (yard_withMode _ .closing) hclose
    refine ⟨hopen, hopened, hrequest ▸ hreplied, fun hv => ?_, fun hv => ?_⟩
    · exact (yardMode_changes (y := .closing) hr hrole (by rw [hm]; decide) (fun _ => hv) hclose).2
    · obtain ⟨hclosed, hdecks⟩ := finish_closing_empty s.register.mode
        (u := (s.handling l 0x28 tag).withMode .closing) rfl hv
      have hmode : t.register.mode = .closed := by
        rw [ht.register]
        exact hclosed
      rw [hrequest]
      refine ⟨hmode, hmode ▸ htold (by rw [hmode, hm]; decide), fun d => ?_⟩
      rw [ht.deck, hdecks]
      exact closed_not_awake _
  · obtain ⟨hopens, hsame⟩ := yardModeBody_of_closing (s := s.handling l 0x28 tag) hm
    obtain ⟨hopen, hregister, htold⟩ := yardMode_changes (y := .opened) hr hrole (by rw [hm]; decide)
      (closingHolds_of_mode (nomatch ·)) hopens
    obtain ⟨hclose, hclosing⟩ := yardMode_kept hr hrole hsame
    exact ⟨hopen, hregister, htold, hclose, hclosing⟩
  · obtain ⟨t, hrequest, hreplied, hregister, hunit, hcause, hdeck, hrecords, hyard, htold⟩ :=
      forceClosed_closes (tag := tag) hr hrole hm
    have hbound : ∀ n, t.bound n = (forceClosed (s.handling l 0x28 tag)).bound n := fun n =>
      congrArg (fun r : Register => r.bindings.get n) hregister
    rw [hrequest]
    refine ⟨hreplied, ?_, hyard, ?_, hrecords, hdeck, fun hd ho v hv => ⟨fun hs => ?_, fun hs hfree => ?_,
      fun c hs hb hc hown => ?_, fun n c hs hlane hb hc hown => ?_, fun n hn => ?_⟩⟩
    · rw [hregister]
      exact forceClosed_mode _
    · rw [hregister]
      exact (windsDown_forceClosed _).numbers
    · rw [hregister]
      exact (forceClosed_unreached (s := s.handling l 0x28 tag) hd hv (fun _ _ _ =>
        not_reaches_of_state (by rw [hs]; decide) (by rw [hs]; decide))).1
    · simp only [hregister, hbound]
      refine forceClosed_unreached (s := s.handling l 0x28 tag) hd hv ?_
      rintro n c hc (⟨hown, _⟩ | ⟨_, hout⟩)
      · exact hfree n c hc hown
      · rw [hs] at hout
        cases hout
    · obtain ⟨⟨hfound, hstands, _⟩, hidle, hended⟩ := forceClosed_weighing (s := s.handling l 0x28 tag) hd hv
        (weighs_of_bound hd ho hv hb hc) (.inl ⟨hown, hs⟩) (by rw [Visit.laneOf, hs])
        (fun u hu => endCapture_weighIn hu hown hs)
      rw [hunit, hregister, hbound]
      exact ⟨hidle, htold _ (fun w e => by cases e) hended, hfound, (hstands _).mpr rfl⟩
    · obtain ⟨⟨hfound, hstands, _⟩, hidle, hended⟩ := forceClosed_weighing (s := s.handling l 0x28 tag) hd hv
        (weighs_of_bound hd ho hv hb hc) (.inr ⟨hown, hs⟩) (by rw [Visit.laneOf, hs]; exact hlane)
        (fun u hu => endCapture_weighOut hu hown hs)
      rw [hunit, hregister]
      refine ⟨hidle, htold _ (fun w e => by cases e) hended, hfound, fun m => ?_⟩
      rw [hbound]
      exact (hstands m).mp
    · have hpassing : v.state = .entering ∨ v.state = .released := hn.imp And.left And.left
      obtain ⟨hfound, hstands⟩ := forceClosed_unreached (s := s.handling l 0x28 tag) hd hv (fun _ _ _ =>
        not_reaches_of_state (by obtain h | h := hpassing <;> rw [h] <;> decide)
          (by obtain h | h := hpassing <;> rw [h] <;> decide))
      simp only [hregister, hbound, hcause]
      exact ⟨hfound, hstands, fun c => forceClosed_cause (s := s.handling l 0x28 tag) hd hv hpassing
        (laneOf_of_passing hn)⟩
  · obtain ⟨hopens, hrefuses, hforbids⟩ := yardModeBody_of_closed (s := s.handling l 0x28 tag) hm
    obtain ⟨hclose, hclosing⟩ := yardMode_kept hr hrole hrefuses
    obtain ⟨hforce, hforced⟩ := yardMode_kept hr hrole hforbids
    refine ⟨hclose, hclosing, hforce, hforced, fun hset => ?_, fun hset => ?_⟩
    · refine yardMode_changes (y := .opened) hr hrole (by rw [hm]; decide) (closingHolds_of_mode (nomatch ·))
        (hopens.trans (if_pos ?_))
      exact Bool.and_eq_true_iff.mpr hset
    · refine yardMode_kept hr hrole (hopens.trans (if_neg ?_))
      change ¬(s.clock.isSet && s.journal.counter.isSome) = true
      obtain hset | hset := hset <;> simp [hset]

end Sys2Proof.Machine
end

section
/-! PROOF. TARE_WRITE, TARE_ERASE and SETUP_WRITE (R9, R10, R12, R70, R129, R132 to R134, R136 to R140): the place of a
registration's entry, a record in range read back from its bytes, and the write each request starts. -/

namespace Sys2Proof.Machine

/-! ### A request that starts a write -/

section
variable {α : Type} {l : LinkId} {s : State} (h : s.ready l) {code tag : Byte} {x : α} {body : α → State → Answer}
  (hrole : (s.link l).role = .office)
include h hrole

/-- R132, R185: a request whose body starts a write is ACCEPTED, and nothing but the engine and the link changes. -/
theorem request_startsWrite {w : StoreWrite} {data : List Byte}
    (hb : body x (s.handling l code tag) = ⟨startWrite w none (s.handling l code tag), .accepted, data⟩) :
    (request l code tag officeOnly (some x) body s).replied l tag code .accepted data ∧
      request l code tag officeOnly (some x) body s =
        (startWrite w none s).setLink l ((request l code tag officeOnly (some x) body s).link l) := by
  obtain ⟨hanswer, hreplied⟩ := request_answer h code tag officeOnly x body (officeOnly_of_office hrole) _ hb rfl
  refine ⟨hreplied, ?_⟩
  rw [hanswer, setLink_link_self]
  exact setLink_setLink (startWrite w none s) l _ _

end

/-! ### The tare area -/

/-- R133: the lowest index that holds no VALID entry. -/
theorem freeIndex_of_lowest {st : Store} {j : Fin 256} (hj : (st.tare.get j).status ≠ .valid)
    (hlow : ∀ i, i < j → (st.tare.get i).status = .valid) : st.freeIndex = some j := by
  refine List.find?_eq_some_iff_getElem.mpr ⟨bne_iff_ne.mpr hj, j.val, ?_, ?_, fun i hi => ?_⟩
  · exact (List.length_finRange (n := 256)).symm ▸ j.isLt
  · exact List.getElem_finRange _
  · have hvalid := hlow ⟨i, hi.trans j.isLt⟩ hi
    simp [tareIndices, hvalid]

theorem freeIndex_of_full {st : Store} (h : ∀ i, (st.tare.get i).status = .valid) : st.freeIndex = none :=
  List.find?_eq_none.mpr (fun i _ => by simp [h i])

theorem placeFor_of_lookup {st : Store} {p : Plate} {j : Fin 256} {x : TareEntry} (h : st.lookup p = some (j, x)) :
    st.placeFor p = some j := by
  unfold Store.placeFor
  rw [h]

theorem placeFor_of_missing {st : Store} {p : Plate} (h : st.lookup p = none) : st.placeFor p = st.freeIndex := by
  unfold Store.placeFor
  rw [h]

theorem tareWriteBody_busy {e : TareEntry} {s : State} (h : s.store.engine.isSome = true) :
    tareWriteBody e s = ⟨s, .storeBusy, []⟩ := if_pos h

theorem tareWriteBody_starts {e : TareEntry} {s : State} {j : Fin 256} (h : s.store.engine = none)
    (hj : s.store.placeFor e.plate = some j) :
    tareWriteBody e s = ⟨startWrite (.tare j (some e)) none s, .accepted, be1 j.val⟩ := by
  unfold tareWriteBody
  rw [h, hj]
  rfl

theorem tareWriteBody_full {e : TareEntry} {s : State} (h : s.store.engine = none)
    (hj : s.store.placeFor e.plate = none) : tareWriteBody e s = ⟨s, .storeFull, []⟩ := by
  unfold tareWriteBody
  rw [h, hj]
  rfl

theorem tareEraseBody_busy {p : Plate} {s : State} (h : s.store.engine.isSome = true) :
    tareEraseBody p s = ⟨s, .storeBusy, []⟩ := if_pos h

theorem tareEraseBody_starts {p : Plate} {s : State} {j : Fin 256} {x : TareEntry} (h : s.store.engine = none)
    (hj : s.store.lookup p = some (j, x)) :
    tareEraseBody p s = ⟨startWrite (.tare j none) none s, .accepted, be1 j.val⟩ := by
  unfold tareEraseBody
  rw [h, hj]
  rfl

theorem tareEraseBody_missing {p : Plate} {s : State} (h : s.store.engine = none) (hj : s.store.lookup p = none) :
    tareEraseBody p s = ⟨s, .notFound, []⟩ := by
  unfold tareEraseBody
  rw [h, hj]
  rfl

theorem exec_tareWrite (l : LinkId) (tag : Byte) {p : List Byte} {e : TareEntry} (hp : tareWriteFields? p = some e)
    (s : State) : exec (.tareWrite l tag p) s = .next (request l 0x20 tag officeOnly (some e) tareWriteBody s) := by
  rw [← hp]
  rfl

theorem exec_tareErase (l : LinkId) (tag : Byte) {p : List Byte} {plate : Plate} (hp : plateField? p = some plate)
    (s : State) : exec (.tareErase l tag p) s = .next (request l 0x21 tag officeOnly (some plate) tareEraseBody s) := by
  rw [← hp]
  rfl

/-- Settles O38: the body by the engine, the lookup and the lowest index that holds no VALID entry. -/
theorem tareRequestsStartWrites : Obligations.TareRequestsStartWrites := by
  intro s l tag h hrole
  have hoffice := officeOnly_of_office hrole
  refine ⟨fun p e hp => ⟨_, exec_tareWrite l tag hp s, fun hbusy => ?_, fun j x hidle hx => ?_,
    fun j hidle hx hj hlow => ?_, fun hidle hx hfull => ?_⟩,
    fun p plate hp => ⟨_, exec_tareErase l tag hp s, fun hbusy => ?_, fun j x hidle hx => ?_, fun hidle hx => ?_⟩⟩
  · exact request_unmoved h hoffice (tareWriteBody_busy (s := s.handling l 0x20 tag) hbusy)
  · exact request_startsWrite h hrole
      (tareWriteBody_starts (s := s.handling l 0x20 tag) hidle (placeFor_of_lookup hx))
  · exact request_startsWrite h hrole (tareWriteBody_starts (s := s.handling l 0x20 tag) hidle
      ((placeFor_of_missing hx).trans (freeIndex_of_lowest hj hlow)))
  · exact request_unmoved h hoffice (tareWriteBody_full (s := s.handling l 0x20 tag) hidle
      ((placeFor_of_missing hx).trans (freeIndex_of_full hfull)))
  · exact request_unmoved h hoffice (tareEraseBody_busy (s := s.handling l 0x21 tag) hbusy)
  · exact request_startsWrite h hrole (tareEraseBody_starts (s := s.handling l 0x21 tag) hidle hx)
  · exact request_unmoved h hoffice (tareEraseBody_missing (s := s.handling l 0x21 tag) hidle hx)

/-! ### Setup records in range -/

theorem ranged?_of_mem {lo hi n : Nat} (hlo : lo ≤ n) (hhi : n ≤ hi) : ranged? lo hi n = some n :=
  if_pos ⟨Int.ofNat_le.mpr hlo, Int.ofNat_le.mpr hhi⟩

theorem flag?_toNat (b : Bool) : flag? b.toNat = some b := by cases b <;> rfl

/-- R190: the number in the deck field of a calibration record. -/
def deckNumber : Option DeckId → Int
  | none => -1
  | some d => d.val

theorem deckField?_deckNumber (d : Option DeckId) : deckField? (deckNumber d) = some d := by
  cases d with
  | none => rfl
  | some d => revert d; decide

/-- R190: the calibration record a SETUP_WRITE gives in its bytes. -/
theorem setupWriteFields?_cal (c : ChanId) {r : CalRecord} (h : r.inRange) :
    setupWriteFields? (be1 c.val ++ r.bytes) = some (.cal c r.zero r.span (deckNumber r.deck)) := by
  rw [setupWrite_cal c r h]
  cases r.deck <;> rfl

theorem calInRange?_of_inRange {r : CalRecord} (h : r.inRange) :
    calInRange? r.zero r.span (deckNumber r.deck) = some r := by
  obtain ⟨hlow, hhigh, hspan, hspan'⟩ := h
  simp [calInRange?, hlow, hhigh, ranged?_of_mem hspan hspan', deckField?_deckNumber]

theorem deckInRange?_of_inRange {u : DeckSetup} (h : u.inRange) :
    deckInRange? u.max u.e u.k u.m u.b u.stableTimeout u.warmUp u.idleSleep = some u := by
  obtain ⟨hmax, hmax', he, hlow, hhigh, hk, hm, hm', hb, hb', hst, hst', hwu, hwu', hsl⟩ := h
  have he100 : 1 ≤ u.e ∧ u.e ≤ 100 := by
    simp only [List.mem_cons, List.not_mem_nil, or_false] at he
    omega
  have hquotient : u.e ∈ [1, 2, 5, 10, 20, 50, 100] ∧ 500 * u.e ≤ u.max ∧ u.max ≤ 10000 * u.e := ⟨he, hlow, hhigh⟩
  unfold deckInRange?
  rw [ranged?_of_mem hmax hmax', ranged?_of_mem he100.1 he100.2, ranged?_of_mem (Nat.zero_le _) hk,
    ranged?_of_mem hm hm', ranged?_of_mem hb hb', ranged?_of_mem hst hst', ranged?_of_mem hwu hwu',
    ranged?_of_mem (Nat.zero_le _) hsl]
  exact if_pos hquotient

theorem laneInRange?_of_inRange {u : LaneSetup} (h : u.inRange) :
    laneInRange? u.enabled.toNat u.direction.code u.loopFilter u.settle u.travel u.wake.deckRising.toNat
      u.wake.deckFalling.toNat u.wake.clearRising.toNat u.wake.clearFalling.toNat = some u := by
  obtain ⟨hlf, hlf', hstep, hse, hse', hstep', htr, htr'⟩ := h
  have hdir : flag? u.direction.code = some (u.direction == .exit) := by cases u.direction <;> rfl
  have hback : (if u.direction == .exit then Direction.exit else .entry) = u.direction := by cases u.direction <;> rfl
  unfold laneInRange?
  simp only [flag?_toNat, hdir, ranged?_of_mem hlf hlf', ranged?_of_mem hse hse', ranged?_of_mem htr htr',
    Option.bind_eq_bind, Option.bind_some, hstep, hstep', hback, and_self, if_true]
  rfl

theorem yardInRange?_of_inRange {u : YardSetup} (h : u.inRange) : yardInRange? u.p u.maxStay = some u := by
  obtain ⟨hp, hp', hstay⟩ := h
  simp [yardInRange?, ranged?_of_mem hp hp', ranged?_of_mem (Nat.zero_le _) hstay]

/-! ### SETUP_WRITE -/

theorem exec_setupWrite (l : LinkId) (tag : Byte) {p : List Byte} {g : SetupGiven} (hp : setupWriteFields? p = some g)
    (calen : Bool) (s : State) : exec (.setupWrite l tag p calen) s =
      .next (request l 0x23 tag officeOnly (some g) (setupWriteBody calen) (s.withCalen calen)) := by
  rw [← hp]
  rfl

/-- R136: the four checks passed in their order. -/
theorem setupWriteBody_starts {s : State} {calen : Bool} {g : SetupGiven} {w : StoreWrite}
    (hkind : kindRefusal s calen g = none) (hidle : s.store.engine = none) (hrange : writeInRange? s g = some w)
    (hbound : boundRefusal s w = none) : setupWriteBody calen g s = ⟨startWrite w none s, .accepted, []⟩ := by
  have hchecks : setupChecks s calen g = .ok w := by
    unfold setupChecks
    rw [hkind, hidle, hrange]
    dsimp only
    rw [hbound]
    rfl
  unfold setupWriteBody
  rw [hchecks]

/-- R137: the service marks that let a calibration record be written. -/
theorem serviced_of_marks {s : State} {d : Option DeckId} (h : ∀ e, d = some e → (s.deck e).service = true) :
    serviced s d = true := by
  cases d with
  | none => rfl
  | some e => exact h e rfl

theorem kindRefusal_cal {s : State} {c : ChanId} {r : CalRecord}
    (h : ∀ d, (s.chan c).cal.deck = some d ∨ r.deck = some d → (s.deck d).service = true) :
    kindRefusal s true (.cal c r.zero r.span (deckNumber r.deck)) = none := by
  refine if_pos ?_
  rw [deckField?_deckNumber, serviced_of_marks (fun e he => h e (.inl he))]
  exact serviced_of_marks (d := r.deck) (fun e he => h e (.inr he))

theorem writeInRange?_cal {s : State} {c : ChanId} {r : CalRecord} (h : r.inRange)
    (hroom : ∀ d, r.deck = some d → ((s.memberIds d).filter (fun x => x != c)).length < 8) :
    writeInRange? s (.cal c r.zero r.span (deckNumber r.deck)) = some (.cal c r) := by
  have hfull : r.deck.any (fun d => deckFull s c d) = false := by
    cases hd : r.deck with
    | none => rfl
    | some d => exact decide_eq_false (Nat.not_le.mpr (hroom d hd))
  simp only [writeInRange?, calInRange?_of_inRange h, hfull]
  rfl

theorem kindRefusal_deck {s : State} {calen : Bool} {d : DeckId} (mx e k m b st wu sl : Int)
    (h : (s.deck d).service = true ∨ (s.deck d).state = .unused) :
    kindRefusal s calen (.deck d mx e k m b st wu sl) = none :=
  if_pos (by simpa using h)

theorem kindRefusal_lane {s : State} {calen : Bool} {n : LaneId} (en dir lf se tr w1 w2 w3 w4 : Int)
    (h : (s.lane n).barrier = .down ∨ s.disabled n = true) :
    kindRefusal s calen (.lane n en dir lf se tr w1 w2 w3 w4) = none :=
  if_pos (by simpa using h)

theorem boundRefusal_lane {s : State} {n : LaneId} {u : LaneSetup}
    (h : s.bound n = none ∨ u.direction = (s.lane n).setup.direction ∧ u.enabled = true) :
    boundRefusal s (.lane n u) = none := by
  refine if_neg ?_
  obtain hfree | ⟨hdir, hon⟩ := h
  · simp [hfree]
  · simp [hdir, hon]

/-- Settles O39: the record is read back from its bytes, and the four checks pass kind by kind. -/
theorem setupWriteStartsWrite : Obligations.SetupWriteStartsWrite := by
  intro s l tag calen h hrole hidle starts
  have key : ∀ {p : List Byte} {g : SetupGiven} {w : StoreWrite}, setupWriteFields? p = some g →
      kindRefusal ((s.withCalen calen).handling l 0x23 tag) calen g = none →
      writeInRange? ((s.withCalen calen).handling l 0x23 tag) g = some w →
      boundRefusal ((s.withCalen calen).handling l 0x23 tag) w = none → starts p w :=
    fun hp hkind hrange hbound => ⟨_, exec_setupWrite l tag hp calen s,
      request_startsWrite (s := s.withCalen calen) h hrole (setupWriteBody_starts hkind hidle hrange hbound)⟩
  refine ⟨fun c r hr hcalen hmarks hroom => ?_, fun d u hu hserviced => ?_, fun n u hu hrest hbound => ?_,
    fun u hu => ?_⟩
  · subst hcalen
    exact key (setupWriteFields?_cal c hr) (kindRefusal_cal hmarks) (writeInRange?_cal hr hroom) rfl
  · exact key (setupWrite_deck d u hu) (kindRefusal_deck _ _ _ _ _ _ _ _ hserviced)
      (congrArg (Option.map _) (deckInRange?_of_inRange hu)) rfl
  · exact key (setupWrite_lane n u hu) (kindRefusal_lane _ _ _ _ _ _ _ _ _ hrest)
      (congrArg (Option.map _) (laneInRange?_of_inRange hu)) (boundRefusal_lane hbound)
  · exact key (setupWrite_yard u hu) rfl (congrArg (Option.map _) (yardInRange?_of_inRange hu)) rfl

end Sys2Proof.Machine
end

section
/-! PROOF. STORE_WRITE_DONE (R3, R11, R13, R30, R41, R42, R71, R98, R132, R140): what a record that takes effect does to
its block, the next write of a ZERO_CAL, and both at the close of the event. -/

namespace Sys2Proof.Machine

/-! ### Decks whose windows are emptied and whose states change -/

/-- Zd, ZERO_LIMIT and the progress of a ZERO_CAL are the same, and an emptied window is still empty. -/
structure Deck.KeepsZero (k k' : Deck) : Prop where
  zd : k'.zd = k.zd
  zeroLimit : k'.zeroLimit = k.zeroLimit
  zeroCal : k'.zeroCal = k.zeroCal
  emptied : k.window = [] ∧ k.current = none → k'.window = [] ∧ k'.current = none

theorem Deck.KeepsZero.refl (k : Deck) : k.KeepsZero k := ⟨rfl, rfl, rfl, id⟩

theorem Deck.KeepsZero.trans {a b c : Deck} (h : a.KeepsZero b) (h' : b.KeepsZero c) : a.KeepsZero c :=
  ⟨h'.zd.trans h.zd, h'.zeroLimit.trans h.zeroLimit, h'.zeroCal.trans h.zeroCal, h'.emptied ∘ h.emptied⟩

theorem emptied_keepsZero (k : Deck) : k.KeepsZero k.emptied := ⟨rfl, rfl, rfl, fun _ => ⟨rfl, rfl⟩⟩

theorem entered_keepsZero (k : Deck) (new : DeckState) (cause : WakeCause) : k.KeepsZero (k.entered new cause) := by
  obtain ⟨_, _, _, _, _, hzd, hlimit, _, _, hcal, _, _, hempties, hkeeps⟩ := entered_frame k new cause
  refine ⟨hzd, hlimit, hcal, fun ⟨hwindow, hcurrent⟩ => ?_⟩
  cases he : emptiesOn k.state new with
  | true =>
    obtain ⟨hwindow', _, _, hcurrent'⟩ := hempties he
    exact ⟨hwindow', hcurrent'⟩
  | false =>
    have hcurrent' : (k.entered new cause).current = none := by
      simp only [Deck.entered, he]
      cases new <;> simp [Deck.quiet, hcurrent]
    exact ⟨(hkeeps he).1.trans hwindow, hcurrent'⟩

/-- Work on the decks that a record taking effect does (R11, R13, R23, R30, R33): the yard's alone, with the mode, the
number of visits and every reading kept. -/
structure DeckWork (s t : State) : Prop where
  yard : YardOnly s t
  size : s.register.sameSize t.register
  readings : s.readingsStand t
  deck : ∀ d, (s.deck d).KeepsZero (t.deck d)

theorem DeckWork.refl (s : State) : DeckWork s s :=
  ⟨YardOnly.refl s, .refl _, readingsStand_refl s, fun _ => .refl _⟩

theorem DeckWork.trans {a b c : State} (h : DeckWork a b) (h' : DeckWork b c) : DeckWork a c :=
  ⟨h.yard.trans h'.yard, h.size.trans h'.size, h.readings.trans h'.readings, fun d => (h.deck d).trans (h'.deck d)⟩

theorem deckWork_emptyWindow (d : DeckId) (s : State) : DeckWork s (emptyWindow d s) := by
  obtain ⟨hyard, _, _, _, _, hself, hother⟩ := emptyWindow_frame d s
  refine ⟨hyard, .refl _, readingsStand_of_mapMembers (f := Channel.emptied) rfl
    (fun _ => ⟨rfl, rfl, .inl rfl, .inl rfl⟩), fun e => ?_⟩
  by_cases he : e = d
  · subst he
    rw [hself]
    exact emptied_keepsZero _
  · rw [hother e he]
    exact .refl _

theorem deckWork_deckChange (d : DeckId) (new : DeckState) (cause : WakeCause) (s : State) :
    DeckWork s (deckChange d new cause s) := by
  obtain ⟨hself, hother, _⟩ := deckChange_frame d new cause s
  refine ⟨yard_deckChange d new cause s, deckChange_sameSize d new cause s, readingsStand_deckChange d new cause s,
    fun e => ?_⟩
  by_cases he : e = d
  · subst he
    rw [hself]
    exact entered_keepsZero _ _ _
  · rw [hother e he]
    exact .refl _

theorem deckWork_leaveFault (d : DeckId) (s : State) : DeckWork s (leaveFault d s) := by
  unfold leaveFault
  split
  · exact deckWork_deckChange _ _ _ s
  · exact .refl s

theorem deckWork_becomeUnused (d : DeckId) (s : State) : DeckWork s (becomeUnused d s) := by
  unfold becomeUnused
  split
  · exact deckWork_deckChange _ _ _ s
  · exact .refl s

theorem deckWork_leaveUnused (d : DeckId) (s : State) : DeckWork s (leaveUnused d s) := by
  unfold leaveUnused
  split
  · exact deckWork_deckChange _ _ _ s
  · exact .refl s

/-- The deck's window is emptied, with what further work follows. -/
theorem window_emptied {d : DeckId} {s t : State} (h : DeckWork (emptyWindow d s) t) :
    (t.deck d).window = [] ∧ (t.deck d).current = none := by
  obtain ⟨_, _, _, _, _, hself, _⟩ := emptyWindow_frame d s
  exact (h.deck d).emptied (by rw [hself]; exact ⟨rfl, rfl⟩)

theorem deckWork_deckLeft (d : Option DeckId) (s : State) : DeckWork s (deckLeft d s) := by
  cases d with
  | none => exact .refl s
  | some d =>
    exact ((deckWork_emptyWindow d s).trans (deckWork_becomeUnused d _)).trans (deckWork_leaveFault d _)

theorem deckWork_deckJoined (d : Option DeckId) (s : State) : DeckWork s (deckJoined d s) := by
  cases d with
  | none => exact .refl s
  | some d => exact (deckWork_emptyWindow d s).trans (deckWork_leaveUnused d _)

/-! ### A calibration record -/

/-- R11: once the record stands in its channel, what is left is work on the decks it named and names. -/
theorem deckWork_calTakesEffect (c : ChanId) (r : CalRecord) (s : State) :
    DeckWork (s.setChan c ((s.chan c).calibrated r)) (calTakesEffect c r s) := by
  unfold calTakesEffect
  dsimp only
  split
  · split
    · exact .refl _
    · exact deckWork_emptyWindow _ _
  · exact (deckWork_deckLeft _ _).trans (deckWork_deckJoined _ _)

/-- R11: the windows of the decks concerned are emptied. -/
theorem calTakesEffect_emptied {c : ChanId} {r : CalRecord} {s : State} {d : DeckId}
    (h : r.deck = some d ∨ (s.chan c).cal.deck = some d) :
    ((calTakesEffect c r s).deck d).window = [] ∧ ((calTakesEffect c r s).deck d).current = none := by
  unfold calTakesEffect
  dsimp only
  by_cases hsame : r.deck = (s.chan c).cal.deck
  · have hd : (s.chan c).cal.deck = some d := h.elim hsame.symm.trans id
    rw [if_pos hsame, hd]
    exact window_emptied (.refl _)
  · rw [if_neg hsame]
    obtain hnew | hold := h
    · rw [hnew]
      exact window_emptied (deckWork_leaveUnused d _)
    · rw [hold]
      exact window_emptied (((deckWork_becomeUnused d _).trans (deckWork_leaveFault d _)).trans
        (deckWork_deckJoined r.deck _))

theorem calibrated_cal_raw (ch : Channel) (r : CalRecord) :
    (ch.calibrated r).cal = r ∧ (ch.calibrated r).raw = ch.raw := by
  unfold Channel.calibrated
  split <;> exact ⟨rfl, rfl⟩

theorem calTakesEffect_chan (c : ChanId) (r : CalRecord) (s : State) :
    ((calTakesEffect c r s).chan c).cal = r ∧ ((calTakesEffect c r s).chan c).raw = (s.chan c).raw ∧
      ∀ e, e ≠ c → ((calTakesEffect c r s).chan e).cal = (s.chan e).cal := by
  have hwork := deckWork_calTakesEffect c r s
  obtain ⟨hcal, hraw⟩ := calibrated_cal_raw (s.chan c) r
  refine ⟨?_, ?_, fun e he => ?_⟩
  · rw [hwork.yard.cal, setChan_chan_self, hcal]
  · rw [(hwork.readings c).raw, setChan_chan_self, hraw]
  · rw [hwork.yard.cal, setChan_chan_ne _ _ he]

/-! ### A deck setup -/

/-- R13: a Zd within the new limit stays. -/
theorem withSetup_within {k : Deck} {u : DeckSetup} (h : k.zd.natAbs ≤ u.max * 20) :
    (k.withSetup u).zd = k.zd ∧ (k.withSetup u).zeroLimit = k.zeroLimit := by
  obtain ⟨_, hin, _⟩ := clampTo_spec u.zeroLimit k.zd (by unfold DeckSetup.zeroLimit; omega)
  have hzd : clampTo u.zeroLimit k.zd = k.zd :=
    hin (by unfold DeckSetup.zeroLimit; omega) (by unfold DeckSetup.zeroLimit; omega)
  simp [Deck.withSetup, Deck.moveZero, hzd]

/-- R13: a Zd beyond the new limit is clamped to it. -/
theorem withSetup_beyond {k : Deck} {u : DeckSetup} (h : u.max * 20 < k.zd.natAbs) :
    (k.withSetup u).zd.natAbs = u.max * 20 ∧ (k.withSetup u).zeroLimit = true := by
  obtain ⟨_, _, hover, hunder⟩ := clampTo_spec u.zeroLimit k.zd (by unfold DeckSetup.zeroLimit; omega)
  have hlimit : u.zeroLimit = u.max * 20 := rfl
  have hzd : (clampTo u.zeroLimit k.zd).natAbs = u.max * 20 := by
    by_cases hpos : u.zeroLimit < k.zd
    · rw [hover hpos]; omega
    · rw [hunder (by omega)]; omega
  have hmoved : clampTo u.zeroLimit k.zd ≠ k.zd := fun e => by rw [e] at hzd; omega
  exact ⟨hzd, by simp [Deck.withSetup, Deck.moveZero, hmoved]⟩

theorem members_eq_nil_iff (s : State) (d : DeckId) : s.members d = [] ↔ ∀ c, (s.chan c).memberOf d = false := by
  rw [List.eq_nil_iff_forall_not_mem]
  refine ⟨fun h c => ?_, fun h ch hch => ?_⟩
  · exact Bool.eq_false_iff.mpr (fun hc => h _ ((mem_members s d _).mpr ⟨c, rfl, hc⟩))
  · obtain ⟨c, rfl, hc⟩ := (mem_members s d ch).mp hch
    rw [h c] at hc
    cases hc

/-- R9: who is a member is a matter of the calibration records alone. -/
theorem members_eq_nil_of_cal {s t : State} (h : ∀ c, (t.chan c).cal = (s.chan c).cal) (d : DeckId) :
    t.members d = [] ↔ s.members d = [] := by
  simp only [members_eq_nil_iff, Channel.memberOf, h]

/-- R30: the state in which a deck made usable leaves UNUSED. -/
theorem leaveUnused_state {d : DeckId} {s : State} (hs : (s.deck d).state = .unused)
    (hb : (s.deck d).setupBad = false) (hm : s.members d ≠ []) :
    ((leaveUnused d s).deck d).state = usableState s d := by
  have hleaves : leaveUnused d s = deckChange d (usableState s d) .request s :=
    if_pos ⟨hs, hb, List.isEmpty_eq_false_iff.mpr hm⟩
  obtain ⟨hself, _⟩ := deckChange_frame d (usableState s d) .request s
  rw [hleaves, hself]
  exact (entered_frame _ _ _).1

/-- R13: the deck with its new setup and an emptied window, before it may leave UNUSED. -/
def State.withDeckSetup (s : State) (d : DeckId) (u : DeckSetup) : State :=
  emptyWindow d (s.setDeck d ((s.deck d).withSetup u))

theorem withDeckSetup_deck (s : State) (d : DeckId) (u : DeckSetup) :
    (s.withDeckSetup d u).deck d = ((s.deck d).withSetup u).emptied := by
  obtain ⟨_, _, _, _, _, hself, _⟩ := emptyWindow_frame d (s.setDeck d ((s.deck d).withSetup u))
  unfold State.withDeckSetup
  rw [hself, setDeck_deck_self]

theorem deckSetupTakesEffect_deck (d : DeckId) (u : DeckSetup) (s : State) :
    ((deckSetupTakesEffect d u s).deck d).setup = u ∧ ((deckSetupTakesEffect d u s).deck d).setupBad = false ∧
      ((deckSetupTakesEffect d u s).deck d).window = [] ∧
      ((deckSetupTakesEffect d u s).deck d).zd = ((s.deck d).withSetup u).zd ∧
      ((deckSetupTakesEffect d u s).deck d).zeroLimit = ((s.deck d).withSetup u).zeroLimit ∧
      ((s.deck d).state = .unused → s.members d ≠ [] →
        ((deckSetupTakesEffect d u s).deck d).state = usableState s d) := by
  have hdeck := withDeckSetup_deck s d u
  have hwork : DeckWork (s.withDeckSetup d u) (deckSetupTakesEffect d u s) := deckWork_leaveUnused d _
  obtain ⟨hsetup, hbad⟩ := hwork.yard.deckSetup d
  have hzero := hwork.deck d
  have hcal : ∀ c, ((s.withDeckSetup d u).chan c).cal = (s.chan c).cal :=
    (deckWork_emptyWindow d (s.setDeck d ((s.deck d).withSetup u))).yard.cal
  refine ⟨?_, ?_, (hzero.emptied ?_).1, ?_, ?_, fun hs hm => ?_⟩
  · rw [hsetup, hdeck]; rfl
  · rw [hbad, hdeck]; rfl
  · rw [hdeck]; exact ⟨rfl, rfl⟩
  · rw [hzero.zd, hdeck]; rfl
  · rw [hzero.zeroLimit, hdeck]; rfl
  · have husable : usableState (s.withDeckSetup d u) d = usableState s d := by
      unfold usableState
      rw [hdeck]
      rfl
    rw [← husable]
    refine leaveUnused_state (s := s.withDeckSetup d u) (by rw [hdeck]; exact hs) (by rw [hdeck]; rfl) ?_
    exact fun h => hm ((members_eq_nil_of_cal hcal d).mp h)

/-! ### A lane setup and the yard setup -/

theorem laneSetupTakesEffect_lane (n : LaneId) (u : LaneSetup) (s : State) :
    (laneSetupTakesEffect n u s).lane n = { s.lane n with setup := s.setupFrom n u, setupBad := false } ∧
      ((laneSetupTakesEffect n u s).deck n).wakeMask = u.wake := by
  refine ⟨get_setAt_self _ _ _, ?_⟩
  rw [show (laneSetupTakesEffect n u s).deck n = { s.deck n with wakeMask := u.wake } from get_setAt_self _ _ _]

/-- R3, R140: the yard setup in effect, and a new period where the exponent has changed. -/
theorem yardSetupTakesEffect_spec (u : YardSetup) (s : State) :
    (yardSetupTakesEffect u s).store = { s.store with yardSetup := u, yardBad := false } ∧
      s.register.sameSize (yardSetupTakesEffect u s).register ∧
      (u.p ≠ s.store.yardSetup.p → (yardSetupTakesEffect u s).period = some (1250 * 2 ^ u.p) ∧
        ∀ c, ((yardSetupTakesEffect u s).chan c).missed = 0) ∧
      (u.p = s.store.yardSetup.p → (yardSetupTakesEffect u s).period = s.period) := by
  have hjudged : ∀ v : State, v.register.sameSize (judgeOverstay v).register := fun v => ⟨rfl, List.length_map _⟩
  have hmissed : ∀ (v : State) (c : ChanId), ((restartPeriod u.p v).chan c).missed = 0 := fun v c => by
    rw [show (restartPeriod u.p v).chan c = { v.chan c with missed := 0, answered := false } from get_map _ _ _]
  unfold yardSetupTakesEffect
  dsimp only
  by_cases hp : u.p = s.store.yardSetup.p
  · rw [if_pos hp]
    split
    · exact ⟨rfl, .refl _, fun h => absurd hp h, fun _ => rfl⟩
    · exact ⟨rfl, hjudged _, fun h => absurd hp h, fun _ => rfl⟩
  · rw [if_neg hp]
    split
    · exact ⟨rfl, .refl _, fun _ => ⟨rfl, hmissed _⟩, fun h => absurd h hp⟩
    · exact ⟨rfl, hjudged _, fun _ => ⟨rfl, hmissed _⟩, fun h => absurd h hp⟩

/-! ### The completed write -/

theorem takesEffect_sameSize (w : StoreWrite) (s : State) : s.register.sameSize (takesEffect w s).register := by
  cases w with
  | tare i e => exact .refl _
  | cal c r => exact (deckWork_calTakesEffect c r s).size
  | deck d u => exact (deckWork_leaveUnused d (s.withDeckSetup d u)).size
  | lane n u => exact .refl _
  | yard u => exact (yardSetupTakesEffect_spec u s).2.1

/-- R132 step 2: of the store a record that takes effect reaches the yard setup alone. -/
theorem takesEffect_store {w : StoreWrite} {s : State} (h : ∀ u, w ≠ .yard u) : (takesEffect w s).store = s.store := by
  cases w with
  | tare i e => rfl
  | cal c r => exact (deckWork_calTakesEffect c r s).yard.store
  | deck d u => exact (deckWork_leaveUnused d (s.withDeckSetup d u)).yard.store
  | lane n u => rfl
  | yard u => exact absurd rfl (h u)

/-- R41: of a deck the end of one record of its ZERO_CAL touches the zero and the progress alone. -/
theorem zeroCalNext_frame (k : Deck) :
    k.zeroCalNext = { k with
      zd := k.zeroCalNext.zd, zeroLimit := k.zeroCalNext.zeroLimit, history := k.zeroCalNext.history
      zeroCal := k.zeroCalNext.zeroCal } := by
  unfold Deck.zeroCalNext
  split <;> rfl

theorem zeroCalNext_last {k : Deck} {x : ChanId × Int} (h : k.zeroCal = [x]) :
    k.zeroCalNext = { k.moveZero 0 false with zeroCal := [] } := by
  unfold Deck.zeroCalNext
  rw [h]

theorem zeroCalNext_more {k : Deck} {x y : ChanId × Int} {rest : List (ChanId × Int)} (h : k.zeroCal = x :: y :: rest) :
    k.zeroCalNext = { k with zeroCal := y :: rest } := by
  unfold Deck.zeroCalNext
  rw [h]

/-- R132 step 3: the deck of a ZERO_CAL and the engine are all it touches. -/
theorem engineNext_frame (z : Option DeckId) (s : State) :
    engineNext z s = { s with
      decks := (engineNext z s).decks, store := { s.store with engine := (engineNext z s).store.engine } } ∧
      (∀ d, z ≠ some d → (engineNext z s).deck d = s.deck d) ∧
      ∀ d, z = some d → (engineNext z s).deck d = (s.deck d).zeroCalNext := by
  cases z with
  | none => exact ⟨rfl, fun _ _ => rfl, nofun⟩
  | some e =>
    have hdecks : (engineNext (some e) s).decks = setAt s.decks e (s.deck e).zeroCalNext := by
      unfold engineNext
      dsimp only
      split <;> rfl
    have hdeck : ∀ d, (engineNext (some e) s).deck d = (setAt s.decks e (s.deck e).zeroCalNext).get d := fun d => by
      unfold State.deck
      rw [hdecks]
      rfl
    refine ⟨?_, fun d hd => ?_, fun d hd => ?_⟩
    · unfold engineNext
      dsimp only
      split <;> rfl
    · rw [hdeck, get_setAt_ne _ _ (fun e => hd (congrArg some e.symm))]
      rfl
    · cases hd
      rw [hdeck, get_setAt_self]

theorem engineNext_engine_last {d : DeckId} {s : State} {x : ChanId × Int} (h : (s.deck d).zeroCal = [x]) :
    (engineNext (some d) s).store.engine = none := by
  unfold engineNext
  simp only [zeroCalNext_last h]

theorem engineNext_engine_more {d : DeckId} {s : State} {x : ChanId × Int} {c : ChanId} {z : Int}
    {rest : List (ChanId × Int)} (h : (s.deck d).zeroCal = x :: (c, z) :: rest) :
    (engineNext (some d) s).store.engine = some ⟨.cal c { (s.chan c).cal with zero := z }, some d, 8⟩ := by
  unfold engineNext
  simp only [zeroCalNext_more h]
  rfl

/-- R132: the write in flight completed, before "write done" is told. -/
def State.written (s : State) (g : Engine) : State :=
  engineNext g.zeroCal (takesEffect g.write { s with store := s.store.complete g.write })

theorem completeWrite_eq {s : State} {g : Engine} (h : s.store.engine = some g) :
    completeWrite s = (s.written g).offerAll (.storeDone g.write.place.1 g.write.place.2) := by
  unfold completeWrite
  rw [h]
  rfl

theorem written_closingHolds {s : State} (g : Engine) (h : s.closingHolds) : (s.written g).closingHolds := by
  refine closingHolds_of_sameSize (s := s) ?_ h
  unfold State.written
  rw [engineNext_register]
  exact takesEffect_sameSize g.write { s with store := s.store.complete g.write }

/-- What the close of an event leaves of a store write that has completed. -/
structure ClosesWrite (u t : State) : Prop where
  store : t.store = u.store
  channels : t.channels = u.channels
  period : t.period = u.period
  deck : ∀ d, (u.deck d).judgedFrom (t.deck d)
  lane : ∀ n, ∃ w, t.lane n = { (u.lane n).withOutputs with word := w }

theorem finish_closesWrite (m : YardMode) {u : State} (x : Notice) (h : u.closingHolds) :
    ClosesWrite u (finish m (u.offerAll x)) := by
  have hclosing : (u.offerAll x).closingHolds := h
  obtain ⟨hchannels, hperiod, _⟩ := finish_frame m (u.offerAll x) hclosing
  refine ⟨(yard_finish m _).store.trans (offerAll_store u x), hchannels.trans (offerAll_channels u x),
    hperiod.trans (offerAll_period u x), fun d => ?_, fun n => ?_⟩
  · rw [← offerAll_deck u x]
    exact finish_judged m d hclosing
  · rw [← offerAll_lane u x]
    exact (finish_lane m _ n).2

section
variable {s t : State} {g : Engine}

/-- Setup, window, state and wake mask of a deck stand as the record that took effect left them. -/
theorem ClosesWrite.deck_effect {u : State} {z : Option DeckId} (h : ClosesWrite (engineNext z u) t) (d : DeckId) :
    (t.deck d).setup = (u.deck d).setup ∧ (t.deck d).setupBad = (u.deck d).setupBad ∧
      (t.deck d).window = (u.deck d).window ∧ (t.deck d).current = (u.deck d).current ∧
      (t.deck d).state = (u.deck d).state ∧ (t.deck d).wakeMask = (u.deck d).wakeMask ∧
      (z = none → (t.deck d).zd = (u.deck d).zd ∧ (t.deck d).zeroLimit = (u.deck d).zeroLimit) := by
  obtain ⟨empty, idle, hjudged⟩ := h.deck d
  obtain ⟨_, hother, hself⟩ := engineNext_frame z u
  rw [hjudged]
  by_cases hz : z = some d
  · rw [hself d hz, zeroCalNext_frame]
    exact ⟨rfl, rfl, rfl, rfl, rfl, rfl, fun e => by rw [hz] at e; cases e⟩
  · rw [hother d hz]
    exact ⟨rfl, rfl, rfl, rfl, rfl, rfl, fun _ => ⟨rfl, rfl⟩⟩

/-- But for the engine the store stands as the record that took effect left it. -/
theorem ClosesWrite.store_effect {u : State} {z : Option DeckId} (h : ClosesWrite (engineNext z u) t) :
    t.store = { u.store with engine := t.store.engine } ∧ t.period = u.period ∧ (∀ c, t.chan c = u.chan c) ∧
      ∀ n, ∃ w, t.lane n = { (u.lane n).withOutputs with word := w } := by
  obtain ⟨hframe, _⟩ := engineNext_frame z u
  refine ⟨?_, ?_, fun c => ?_, fun n => ?_⟩
  · rw [h.store, hframe]
  · rw [h.period, hframe]
  · unfold State.chan
    rw [h.channels, hframe]
  · obtain ⟨w, hw⟩ := h.lane n
    refine ⟨w, ?_⟩
    rw [hw, hframe]
    rfl

theorem ClosesWrite.idle (h : ClosesWrite (s.written g) t) (hz : g.zeroCal = none) : t.store.engine = none := by
  rw [h.store]
  unfold State.written
  rw [hz]
  rfl

theorem ClosesWrite.tare {i : Fin 256} {e : Option TareEntry} (h : ClosesWrite (s.written g) t)
    (hw : g.write = .tare i e) : t.store.tare = (s.store.complete (.tare i e)).tare := by
  obtain ⟨hstore, _⟩ := h.store_effect
  rw [hstore, hw]
  rfl

theorem ClosesWrite.cal {c : ChanId} {r : CalRecord} (h : ClosesWrite (s.written g) t) (hw : g.write = .cal c r) :
    t.store.cal = setAt s.store.cal c ⟨.content r, .valid⟩ ∧ (t.chan c).cal = r ∧ (t.chan c).raw = (s.chan c).raw ∧
      ∀ d, r.deck = some d ∨ (s.chan c).cal.deck = some d → (t.deck d).window = [] ∧ (t.deck d).current = none := by
  obtain ⟨hstore, _, hchan, _⟩ := h.store_effect
  obtain ⟨hcal, hraw, _⟩ := calTakesEffect_chan c r { s with store := s.store.complete (.cal c r) }
  rw [hw] at hstore hchan
  rw [takesEffect_store (fun _ e => by cases e)] at hstore
  refine ⟨by rw [hstore]; rfl, by rw [hchan]; exact hcal, by rw [hchan]; exact hraw, fun d hd => ?_⟩
  obtain ⟨_, _, hwindow, hcurrent, _⟩ := h.deck_effect d
  rw [hwindow, hcurrent, hw]
  exact calTakesEffect_emptied (s := { s with store := s.store.complete (.cal c r) }) hd

theorem ClosesWrite.deckSetup {d : DeckId} {u : DeckSetup} (h : ClosesWrite (s.written g) t)
    (hw : g.write = .deck d u) :
    t.store.deck = setAt s.store.deck d ⟨.content u, .valid⟩ ∧
      (t.deck d).setup = u ∧ (t.deck d).setupBad = false ∧ (t.deck d).window = [] ∧
      ((s.deck d).zd.natAbs ≤ u.max * 20 → g.zeroCal = none →
        (t.deck d).zd = (s.deck d).zd ∧ (t.deck d).zeroLimit = (s.deck d).zeroLimit) ∧
      (u.max * 20 < (s.deck d).zd.natAbs → g.zeroCal = none →
        (t.deck d).zd.natAbs = u.max * 20 ∧ (t.deck d).zeroLimit = true) ∧
      ((s.deck d).state = .unused → s.members d ≠ [] → (t.deck d).state =
        (if (s.deck d).service then .service else if s.register.mode = .closed then .sleep else .warming)) := by
  obtain ⟨hstore, _⟩ := h.store_effect
  obtain ⟨hsetup, hbad, hwindow, _, hstate, _, hzero⟩ := h.deck_effect d
  obtain ⟨hsetup', hbad', hwindow', hzd, hlimit, hstate'⟩ :=
    deckSetupTakesEffect_deck d u { s with store := s.store.complete (.deck d u) }
  rw [hw] at hstore hsetup hbad hwindow hstate hzero
  rw [takesEffect_store (fun _ e => by cases e)] at hstore
  refine ⟨by rw [hstore]; rfl, hsetup.trans hsetup', hbad.trans hbad', hwindow.trans hwindow', fun hin hz => ?_,
    fun hout hz => ?_, fun hs hm => hstate.trans (hstate' hs hm)⟩
  · obtain ⟨hzd', hlimit'⟩ := hzero hz
    obtain ⟨hkept, hkept'⟩ := withSetup_within hin
    exact ⟨(hzd'.trans hzd).trans hkept, (hlimit'.trans hlimit).trans hkept'⟩
  · obtain ⟨hzd', hlimit'⟩ := hzero hz
    obtain ⟨hclamped, hset⟩ := withSetup_beyond hout
    exact ⟨(congrArg Int.natAbs (hzd'.trans hzd)).trans hclamped, (hlimit'.trans hlimit).trans hset⟩

theorem ClosesWrite.laneSetup {n : LaneId} {u : LaneSetup} (h : ClosesWrite (s.written g) t)
    (hw : g.write = .lane n u) :
    t.store.lane = setAt s.store.lane n ⟨.content u, .valid⟩ ∧ (s.bound n = none → (t.lane n).setup = u) ∧
      ((s.bound n).isSome = true → (t.lane n).setup = { u with direction := (s.lane n).setup.direction }) ∧
      (t.lane n).setupBad = false ∧ (t.deck n).wakeMask = u.wake ∧
      (t.lane n).barrier = (s.lane n).barrier ∧ (t.lane n).cause = (s.lane n).cause := by
  obtain ⟨hstore, _, _, hlane⟩ := h.store_effect
  obtain ⟨w, hlane⟩ := hlane n
  obtain ⟨_, _, _, _, _, hmask, _⟩ := h.deck_effect n
  obtain ⟨hset, hmask'⟩ := laneSetupTakesEffect_lane n u { s with store := s.store.complete (.lane n u) }
  obtain ⟨hfree, hbound⟩ := setupFrom_spec s n u
  rw [hw] at hstore hlane hmask
  have hlane' : t.lane n = { ({ s.lane n with setup := s.setupFrom n u, setupBad := false } : Lane).withOutputs with
      word := w } := hlane.trans (congrArg (fun k : Lane => { k.withOutputs with word := w }) hset)
  rw [hlane']
  exact ⟨by rw [hstore]; rfl, hfree, hbound, rfl, hmask.trans hmask', rfl, rfl⟩

theorem ClosesWrite.yardSetup {u : YardSetup} (h : ClosesWrite (s.written g) t) (hw : g.write = .yard u) :
    t.store.yard = ⟨.content u, .valid⟩ ∧ t.store.yardSetup = u ∧ t.store.yardBad = false ∧
      (u.p ≠ s.store.yardSetup.p → t.period = some (1250 * 2 ^ u.p) ∧ ∀ c, (t.chan c).missed = 0) ∧
      (u.p = s.store.yardSetup.p → t.period = s.period) := by
  obtain ⟨hstore, hperiod, hchan, _⟩ := h.store_effect
  obtain ⟨hstore', _, hnew, hold⟩ := yardSetupTakesEffect_spec u { s with store := s.store.complete (.yard u) }
  rw [hw] at hstore hperiod hchan
  have hset : t.store = { (s.store.complete (.yard u)) with
      yardSetup := u, yardBad := false, engine := t.store.engine } :=
    hstore.trans (congrArg (fun st : Store => { st with engine := t.store.engine }) hstore')
  refine ⟨by rw [hset]; rfl, by rw [hset], by rw [hset], fun hp => ?_, fun hp => hperiod.trans (hold hp)⟩
  obtain ⟨hstarted, hmissed⟩ := hnew hp
  exact ⟨hperiod.trans hstarted, fun c => by rw [hchan]; exact hmissed c⟩

/-- R11, R132: a calibration record stored and in effect, before the engine turns to its next write. -/
def State.calWritten (s : State) (c : ChanId) (r : CalRecord) : State :=
  calTakesEffect c r { s with store := s.store.complete (.cal c r) }

/-- R41: the deck of a ZERO_CAL and the engine once one of its records has completed. -/
theorem ClosesWrite.zeroCal {c : ChanId} {r : CalRecord} {d : DeckId} (h : ClosesWrite (s.written g) t)
    (hw : g.write = .cal c r) (hz : g.zeroCal = some d) :
    (s.deck d).KeepsZero ((s.calWritten c r).deck d) ∧
      ((s.calWritten c r).deck d).zeroCalNext.judgedFrom (t.deck d) ∧
      t.store.engine = (engineNext (some d) (s.calWritten c r)).store.engine := by
  have hwork := deckWork_calTakesEffect c r { s with store := s.store.complete (.cal c r) }
  obtain ⟨_, _, hself⟩ := engineNext_frame g.zeroCal (takesEffect g.write { s with store := s.store.complete g.write })
  have hdeck := h.deck d
  unfold State.written at hdeck
  rw [hself d hz, hw] at hdeck
  refine ⟨hwork.deck d, hdeck, ?_⟩
  rw [h.store]
  unfold State.written
  rw [hz, hw]
  rfl

theorem ClosesWrite.zeroCal_last {c : ChanId} {r : CalRecord} {d : DeckId} {x : ChanId × Int}
    (h : ClosesWrite (s.written g) t) (hw : g.write = .cal c r) (hz : g.zeroCal = some d)
    (hx : (s.deck d).zeroCal = [x]) :
    t.store.engine = none ∧ (t.deck d).zeroCal = [] ∧ (t.deck d).zd = 0 ∧ (t.deck d).zeroLimit = false := by
  obtain ⟨hzero, ⟨empty, idle, hdeck⟩, hengine⟩ := h.zeroCal hw hz
  have hlast := hzero.zeroCal.trans hx
  rw [hengine, engineNext_engine_last hlast, hdeck, zeroCalNext_last hlast]
  exact ⟨rfl, rfl, rfl, rfl⟩

theorem ClosesWrite.zeroCal_more {c c2 : ChanId} {r : CalRecord} {d : DeckId} {x : ChanId × Int} {z2 : Int}
    {rest : List (ChanId × Int)} (h : ClosesWrite (s.written g) t) (hw : g.write = .cal c r) (hz : g.zeroCal = some d)
    (hx : (s.deck d).zeroCal = x :: (c2, z2) :: rest) (hne : c2 ≠ c) :
    (t.deck d).zeroCal = (c2, z2) :: rest ∧ (t.deck d).zd = (s.deck d).zd ∧
      t.store.engine = some ⟨.cal c2 { (s.chan c2).cal with zero := z2 }, some d, 8⟩ := by
  obtain ⟨hzero, ⟨empty, idle, hdeck⟩, hengine⟩ := h.zeroCal hw hz
  have hmore := hzero.zeroCal.trans hx
  obtain ⟨_, _, hcal⟩ := calTakesEffect_chan c r { s with store := s.store.complete (.cal c r) }
  have hother : ((s.calWritten c r).chan c2).cal = (s.chan c2).cal := hcal c2 hne
  rw [hengine, engineNext_engine_more hmore, hdeck, zeroCalNext_more hmore, hother]
  exact ⟨rfl, hzero.zd, rfl⟩

end

/-- Settles O40: the write completed at the close of its event, content by content. -/
theorem completedWriteTakesEffect : Obligations.CompletedWriteTakesEffect := by
  intro s g hu hc hg
  have hexec : exec .storeWriteDone s = .next (finish s.register.mode (completeWrite s)) :=
    (exec_storeWriteDone s).trans (yardEvent_acts _ completeWrite s hu (by rw [hg]; rfl))
  have h := finish_closesWrite s.register.mode (.storeDone g.write.place.1 g.write.place.2) (written_closingHolds g hc)
  rw [← completeWrite_eq hg] at h
  have htold : s.tells (finish s.register.mode (completeWrite s)) (.storeDone g.write.place.1 g.write.place.2) :=
    tells_finish _ (fun w e => by cases e) ((completeWrite_frame s).2 g hg)
  generalize finish s.register.mode (completeWrite s) = t at h hexec htold
  exact ⟨t, hexec, htold, h.idle, fun i e => h.tare, fun i => h.tare, fun c r => h.cal, fun d u => h.deckSetup,
    fun n u => h.laneSetup, fun u => h.yardSetup, fun c r d x hw hz hx => h.zeroCal_last hw hz hx,
    fun c r d x c2 z2 rest hw hz hx hne => h.zeroCal_more hw hz hx hne⟩

end Sys2Proof.Machine
end

section
/-! PROOF. What the come-ups leave (R42, R50, R121, R128, R143, R162, R163, R166, R172, R204): the decks, the
register, the places in the journal with their fills, and what the links are told. -/

namespace Sys2Proof.Machine

/-! ### Work done once on each of a list of places -/

/-- Work on one place after the other, each leaving the other places and what is to be done there. -/
theorem foldl_each_once {ι α : Type} {f : State → ι → State} {get make : State → ι → α}
    (hself : ∀ s i, get (f s i) i = make s i) (hother : ∀ s i j, i ≠ j → get (f s j) i = get s i)
    (hmake : ∀ s i j, i ≠ j → make (f s j) i = make s i) {is : List ι} (hn : is.Nodup) {i : ι} (hi : i ∈ is)
    (s : State) :
    get (is.foldl f s) i = make s i := by
  have hstays : ∀ (js : List ι) (u : State), i ∉ js → get (js.foldl f u) i = get u i := by
    intro js
    induction js with
    | nil => exact fun _ _ => rfl
    | cons j js ih =>
      intro u hj
      rw [List.mem_cons, not_or] at hj
      rw [List.foldl_cons, ih _ hj.2, hother u i j hj.1]
  induction is generalizing s with
  | nil => cases hi
  | cons j js ih =>
    rw [List.nodup_cons] at hn
    rw [List.foldl_cons]
    by_cases hij : i = j
    · subst hij
      rw [hstays js _ hn.1, hself]
    · rw [ih hn.2 ((List.mem_cons.mp hi).resolve_left hij), hmake s i j hij]

/-! ### Decks -/

theorem members_isEmpty_of_cal {s t : State} (h : ∀ c, (t.chan c).cal = (s.chan c).cal) (d : DeckId) :
    (t.members d).isEmpty = (s.members d).isEmpty := by
  rw [Bool.eq_iff_iff, List.isEmpty_iff, List.isEmpty_iff, members_eq_nil_of_cal h d]

/-- R50: the state a deck comes up in follows from its SETUP_BAD, its members, its service mark and the yard's mode. -/
theorem firstState_congr {s t : State} {d : DeckId} (hcal : ∀ c, (t.chan c).cal = (s.chan c).cal)
    (hbad : (t.deck d).setupBad = (s.deck d).setupBad) (hservice : (t.deck d).service = (s.deck d).service)
    (hmode : t.register.mode = s.register.mode) : firstState t d = firstState s d := by
  unfold firstState usableState
  rw [hbad, hservice, hmode, members_isEmpty_of_cal hcal]

theorem firstState_eq (s : State) (d : DeckId) :
    firstState s d = (if (s.deck d).setupBad = true ∨ s.members d = [] then .unused
      else if (s.deck d).service then .service else if s.register.mode = .closed then .sleep else .warming) := by
  simp only [firstState, usableState, Bool.or_eq_true, List.isEmpty_iff]

/-- R42, R50: each deck once the deck engines have come up. -/
theorem decksUp_deck (s : State) (d : DeckId) :
    (decksUp s).deck d = ((s.deck d).comeUp (s.lane d).setup.wake).entered (firstState s d) .request := by
  have hup : ∀ e, ({ s with decks := Vector.ofFn (fun d => (s.deck d).comeUp (s.lane d).setup.wake) } : State).deck e =
      (s.deck e).comeUp (s.lane e).setup.wake := fun e => get_ofFn _ _
  have hdecks := foldl_each_once (f := fun s d => enterDeck d (firstState s d) .request s) (get := State.deck)
    (make := fun s d => (s.deck d).entered (firstState s d) .request)
    (fun u i => get_setAt_self _ _ _) (fun u i j hij => get_setAt_ne _ _ hij)
    (fun u i j hij => by
      have hkeep : (enterDeck j (firstState u j) .request u).deck i = u.deck i := get_setAt_ne _ _ hij
      rw [hkeep, firstState_congr (yard_enterDeck _ _ _ u).cal (by rw [hkeep]) (by rw [hkeep]) rfl])
    (is := allDecks) (by decide) (i := d) (by revert d; decide)
    { s with decks := Vector.ofFn (fun d => (s.deck d).comeUp (s.lane d).setup.wake) }
  unfold decksUp
  rw [hdecks, hup]
  exact congrArg (Deck.entered _ · .request)
    (firstState_congr (fun _ => rfl) (by rw [hup]; rfl) (by rw [hup]; rfl) rfl)

/-- R204: the journal and the end of start-up leave the decks and the channels. -/
theorem laterComeUps_decks (u : State) :
    (endStart (fillAll (journalUp u))).decks = u.decks ∧ (endStart (fillAll (journalUp u))).channels = u.channels := by
  constructor
  · show (fillAll (journalUp u)).decks = _
    rw [fillAll_frame]
    rfl
  · show (fillAll (journalUp u)).channels = _
    rw [fillAll_frame]
    rfl

/-- The part as the journal is about to come up (R204). -/
def State.storeIsUp (s : State) : State := storeUp (lanesUp (decksUp (cellsUp (registerUp s))))

theorem comeUps_eq (s : State) : comeUps s = endStart (fillAll (journalUp s.storeIsUp)) := rfl

/-- R204: what comes up after the decks leaves them and the channels. -/
theorem comeUps_decks (s : State) :
    (comeUps s).decks = (decksUp (cellsUp (registerUp s))).decks ∧
      (comeUps s).channels = (decksUp (cellsUp (registerUp s))).channels := by
  obtain ⟨hdecks, hchannels⟩ := laterComeUps_decks s.storeIsUp
  obtain ⟨_, _, _, _, hdecks', hchannels', _⟩ := lanesUp_frame (decksUp (cellsUp (registerUp s)))
  rw [comeUps_eq, hdecks, hchannels]
  exact ⟨hdecks', hchannels'⟩

theorem comeUps_deck (s : State) (d : DeckId) :
    ∃ mask, (comeUps s).deck d = ((s.deck d).comeUp mask).entered (firstState s d) .request := by
  refine ⟨((cellsUp (registerUp s)).lane d).setup.wake, ?_⟩
  have hdeck : (comeUps s).deck d = (decksUp (cellsUp (registerUp s))).deck d :=
    congrArg (Vector.get · d) (comeUps_decks s).1
  rw [hdeck, decksUp_deck]
  rfl

theorem comeUps_cal (s : State) (c : ChanId) : ((comeUps s).chan c).cal = (s.chan c).cal := by
  have hchan : (comeUps s).chan c = (decksUp (cellsUp (registerUp s))).chan c :=
    congrArg (Vector.get · c) (comeUps_decks s).2
  rw [hchan, (decksUp_frame _).1.cal]
  rfl

/-! ### The register -/

/-- R121: the judgment of one visit. -/
def Visit.judged (time limit : Nat) (v : Visit) : Visit :=
  if v.nowOverstays time limit then { v with flags := { v.flags with overstay := true } } else v

theorem judged_eq (time limit : Nat) (v : Visit) :
    v.judged time limit = { v with flags := { v.flags with overstay := (v.judged time limit).flags.overstay } } := by
  unfold Visit.judged
  split <;> rfl

/-- R128, R121: the visits that live through the reset, judged; the bindings and the mode. -/
theorem comeUps_register (s : State) :
    (comeUps s).register = { s.register.afterReset with
      visits := s.register.visits.map (fun v => v.afterReset.judged s.clock.time s.store.yardSetup.maxStay) } := by
  obtain ⟨_, hdecks, _⟩ := decksUp_frame (cellsUp (registerUp s))
  obtain ⟨_, hlanes, _⟩ := lanesUp_frame (decksUp (cellsUp (registerUp s)))
  obtain ⟨hclock, _, _, hstore, _⟩ := comeUps_spec s
  generalize hw : fillAll (journalUp (storeUp (lanesUp (decksUp (cellsUp (registerUp s)))))) = w
  have hup : comeUps s = endStart w := by rw [← hw]; rfl
  have hregister : w.register = s.register.afterReset := by
    rw [← hw]
    exact (fillAll_register _).trans (hlanes.trans hdecks)
  have htime : w.clock = s.clock := (congrArg State.clock hup).symm.trans hclock
  have hlimit : w.store.yardSetup = s.store.yardSetup := by
    have he : w.store = (comeUps s).store := by rw [hup]; rfl
    rw [he, hstore]
  rw [hup]
  show ({ w.register with
    visits := w.register.visits.map (Visit.judged w.clock.time w.store.yardSetup.maxStay) } : Register) = _
  rw [hregister, htime, hlimit]
  exact congrArg (fun vs => ({ s.register.afterReset with visits := vs } : Register)) (List.map_map ..)

/-- R128: a visit that lives through a reset, field by field. -/
theorem visitAfterReset_eq (v : Visit) :
    v.afterReset = { v with
      state := if v.state = .weighOut then .onSite else v.state
      failure := if v.state = .weighOut ∨ v.state = .weighIn ∧ v.capMark = true then some .aborted else v.failure
      exitLane := if v.state = .weighOut then none else v.exitLane
      capMark := false
      flags := { v.flags with restartSeen := true } } := by
  unfold Visit.afterReset
  cases hs : v.state with
  | weighIn => cases hm : v.capMark <;> simp
  | _ => simp

/-- R128: a visit's binding stands, but for that of a WEIGH_OUT visit. -/
theorem comeUps_bound (s : State) {n : LaneId} {v : Nat} (h : s.bound n = some v) :
    (comeUps s).bound n = if (∃ x, s.register.find v = some x ∧ x.state = .weighOut) then none else some v := by
  have hbound : (comeUps s).bound n = s.register.bindingAfterReset (s.bound n) := by
    unfold State.bound
    rw [comeUps_register]
    exact get_map _ _ _
  rw [hbound, h]
  simp only [Register.bindingAfterReset, Option.any_eq_true, beq_iff_eq]

/-! ### Fills -/

theorem mem_allLinks (l : LinkId) : l ∈ allLinks := by revert l; decide

theorem told_offerEach {ns : List (LinkId × Notice)} {l : LinkId} {x : Notice} (hx : ∀ w, x ≠ .laneStatus w)
    (h : (l, x) ∈ ns) (ks : Vector LinkState 3) : (ks.get l).told ((offerEach ks ns).get l) x := by
  induction ns generalizing ks with
  | nil => cases h
  | cons p ns ih =>
    obtain h | h := List.mem_cons.mp h
    · subst h
      exact (offersOnly_offerEach _ ns).told _ l x hx (told_offerOne ks x l hx)
    · obtain ⟨_, hrole, hmask, _⟩ := (offersOnly_offerOne ks p.1 p.2).fixed l
      exact told_of_fixed _ _ _ _ hrole hmask (ih h _)

/-- R166: the place of each link once its fill conditions have been judged. -/
theorem fillAll_jlink (s : State) (l : LinkId) :
    (fillAll s).jlink l = ((s.jlink l).fill s.journal.records).1 :=
  foldl_each_once (f := fun s l => fillLink l s) (get := State.jlink)
    (make := fun s l => ((s.jlink l).fill s.journal.records).1) (fun _ _ => get_setAt_self _ _ _)
    (fun _ _ _ hij => get_setAt_ne _ _ hij)
    (fun u i j hij => congrArg (fun k : JournalLink => (k.fill u.journal.records).1) (get_setAt_ne _ _ hij))
    (is := allLinks) (by decide) (mem_allLinks l) s

/-- R167: a link is told each of its fills. -/
theorem fillAll_told {s : State} {l : LinkId} {x : Notice} (hx : ∀ w, x ≠ .laneStatus w)
    (h : x ∈ ((s.jlink l).fill s.journal.records).2) : (s.link l).told ((fillAll s).link l) x := by
  have hl := mem_allLinks l
  unfold fillAll
  generalize allLinks = ls at hl
  induction ls generalizing s with
  | nil => cases hl
  | cons m ls ih =>
    rw [List.foldl_cons]
    by_cases hm : l = m
    · subst hm
      have hfilled : (s.link l).told ((fillLink l s).link l) x :=
        told_offerEach hx (List.mem_map.mpr ⟨x, h, rfl⟩) s.links
      exact (yard_foldl _ (fun u j => yard_fillLink j u) ls _).links.told _ l x hx hfilled
    · have hplace : (fillLink m s).jlink l = s.jlink l := get_setAt_ne _ _ hm
      obtain ⟨_, hrole, hmask, _⟩ := (yard_fillLink m s).links.fixed l
      refine told_of_fixed _ _ _ _ hrole hmask (ih (s := fillLink m s) ?_ ((List.mem_cons.mp hl).resolve_left hm))
      rw [hplace]
      exact h

theorem fillOnce_gap {rs : List Ticket} {k : JournalLink} (h : k.gap = 0) : (k.fillOnce rs).1.gap = 0 := by
  unfold JournalLink.fillOnce
  split
  · split
    · exact h
    · rfl
  · exact h

/-- R162, R163, R166, R172: the place of a link after a reset and its fills; a disabled link has none. -/
theorem afterReset_fill (rs : List Ticket) (r : Role) (k : JournalLink) :
    ((k.afterReset rs r).fill rs).1.role = k.roleUnder r ∧ ((k.afterReset rs r).fill rs).1.halt = false ∧
      ((k.afterReset rs r).fill rs).1.gap = 0 ∧
      (k.roleUnder r = .none → ((k.afterReset rs r).fill rs) = (k.afterReset rs r, [])) ∧
      (r = .disabled → ((k.afterReset rs r).fill rs).1.cursor = .absent ∧
        ((k.afterReset rs r).fill rs).1.slotCount = 0 ∧ ((k.afterReset rs r).fill rs).1.even = none ∧
        ((k.afterReset rs r).fill rs).1.odd = none) := by
  obtain ⟨hrole, hhalt, hgap, heven, hodd, _, hcount, hcursor, _⟩ := afterReset_spec rs r k
  obtain ⟨hrole', hhalt'⟩ := fill_frame rs (k.afterReset rs r)
  have hnone : k.roleUnder r = .none → ((k.afterReset rs r).fill rs) = (k.afterReset rs r, []) := fun h =>
    fill_none _ _ (.inl (by simp [JournalLink.open?, hrole, h]))
  refine ⟨hrole'.trans hrole, hhalt'.trans hhalt, fillOnce_gap (fillOnce_gap hgap), hnone, fun hd => ?_⟩
  rw [hnone (by simp [JournalLink.roleUnder, hd])]
  exact ⟨hcursor hd, hcount, heven, hodd⟩

/-- R153: the cursor past up to two records from a place on. -/
theorem cursorAt_past_two (rs : List Ticket) (i : Nat) :
    cursorAt rs (i + min 2 (rs.drop i).length) = cursorAt (rs.drop i) 2 := by
  have hget : rs[i + min 2 (rs.drop i).length]? = (rs.drop i)[2]? := by
    rw [List.getElem?_drop]
    by_cases h : 2 ≤ (rs.drop i).length
    · rw [Nat.min_eq_left h]
    · rw [List.length_drop] at h ⊢
      rw [List.getElem?_eq_none (by omega), List.getElem?_eq_none (by omega)]
  unfold cursorAt
  rw [hget]

/-- R162, R166, R172: with the records in sequence the slots fill from the cursor moved back by the slot count. -/
theorem afterReset_fill_waiting {j : Journal} {r : Role} {k : JournalLink} (h : j.sequenced)
    (hr : k.roleUnder r ≠ .none) (hc : k.cursor ≠ .absent) {w : List Ticket}
    (hw : w = j.records.drop (k.cursor.place j.records - k.slotCount)) :
    ((k.afterReset j.records r).fill j.records).1.even = w[0]? ∧
      ((k.afterReset j.records r).fill j.records).1.odd = w[1]? ∧
      ((k.afterReset j.records r).fill j.records).1.slotCount = min 2 w.length ∧
      ((k.afterReset j.records r).fill j.records).1.cursor = cursorAt w 2 ∧
      ((k.afterReset j.records r).fill j.records).2 = (w[0]?.map (fun t => Notice.ticket .even t.number)).toList ++
        (w[1]?.map (fun t => Notice.ticket .odd t.number)).toList := by
  obtain ⟨hrole, hhalt, hgap, heven, hodd, hnext, hcount, _, hcursor⟩ := afterReset_spec j.records r k
  have hon : r ≠ .disabled := fun hd => hr (by simp [JournalLink.roleUnder, hd])
  obtain ⟨hplace, hnotices⟩ := fill_at j.records (sequenced_nodup h) _ _ (hrole ▸ hr) hhalt heven hodd hnext hcount
    (hcursor hon hc) hgap
  rw [← hw] at hnotices
  rw [hplace, hw]
  exact ⟨rfl, rfl, rfl, cursorAt_past_two _ _, hw ▸ hnotices⟩

/-! ### The journal and the notices of a start-up -/

theorem storeIsUp_links (s : State) : OffersOnly s.links s.storeIsUp.links := by
  obtain ⟨hdecks, _⟩ := decksUp_frame (cellsUp (registerUp s))
  obtain ⟨hlanes, _⟩ := lanesUp_frame (decksUp (cellsUp (registerUp s)))
  exact (hdecks.trans hlanes).links.trans (offersOnly_foldl _ (fun ks p => offersOnly_offerAll ks _) _ _)

theorem storeIsUp_journal (s : State) : s.storeIsUp.journal = s.journal := by
  obtain ⟨_, _, hdecks, _⟩ := decksUp_frame (cellsUp (registerUp s))
  obtain ⟨_, _, hlanes, _⟩ := lanesUp_frame (decksUp (cellsUp (registerUp s)))
  exact hlanes.trans hdecks

/-- R162, R163, R172: each link's place once the journal has come up. -/
theorem journalUp_jlink (s : State) (l : LinkId) :
    (journalUp s).jlink l = (s.jlink l).afterReset s.journal.records (s.link l).role := get_ofFn _ _

theorem journalUp_links (s : State) : OffersOnly s.links (journalUp s).links := (judgeLow_frame _).2

theorem comeUps_place (s : State) (l : LinkId) :
    (journalUp s.storeIsUp).jlink l = (s.jlink l).afterReset s.journal.records (s.link l).role := by
  have hrole : (s.storeIsUp.link l).role = (s.link l).role := ((storeIsUp_links s).fixed l).2.1
  have hjlink : s.storeIsUp.jlink l = s.jlink l := by
    unfold State.jlink
    rw [storeIsUp_journal]
  rw [journalUp_jlink, hrole, hjlink, storeIsUp_journal]

theorem comeUps_records (s : State) : (journalUp s.storeIsUp).journal.records = s.journal.records := by
  show s.storeIsUp.journal.records = _
  rw [storeIsUp_journal]

theorem endStart_jlink (w : State) (l : LinkId) : (endStart w).jlink l = w.jlink l := rfl

/-- R162, R163, R166, R172: each link's place after a start-up. -/
theorem comeUps_jlink (s : State) (l : LinkId) :
    (comeUps s).jlink l =
      (((s.jlink l).afterReset s.journal.records (s.link l).role).fill s.journal.records).1 := by
  rw [comeUps_eq, endStart_jlink, fillAll_jlink, comeUps_place, comeUps_records]

/-- What a link is told before the journal comes up is told when start-up has ended. -/
theorem told_endStart {k : LinkState} {w : State} {l : LinkId} {x : Notice} (hx : ∀ w, x ≠ .laneStatus w)
    (h : k.told (w.link l) x) : k.told ((endStart w).link l) x :=
  (judgeOverstay_frame _).2.1.told k l x hx h

/-- R167: each fill is told to its link. -/
theorem comeUps_told_fill {s : State} {l : LinkId} {x : Notice} (hx : ∀ w, x ≠ .laneStatus w)
    (h : x ∈ (((s.jlink l).afterReset s.journal.records (s.link l).role).fill s.journal.records).2) :
    (s.link l).told ((comeUps s).link l) x := by
  rw [← comeUps_place, ← comeUps_records] at h
  have hlinks : OffersOnly s.links (journalUp s.storeIsUp).links :=
    (storeIsUp_links s).trans (journalUp_links _)
  obtain ⟨_, hrole, hmask, _⟩ := hlinks.fixed l
  rw [comeUps_eq]
  exact told_endStart hx (told_of_fixed _ _ _ _ hrole hmask (fillAll_told hx h))

/-- R143: every place on the lost list is told. -/
theorem comeUps_told_lost {s : State} {p : StoreArea × Nat} (h : p ∈ s.store.lostList) :
    s.tells (comeUps s) (.storeLost p.1 p.2) := by
  obtain ⟨hdecks, _⟩ := decksUp_frame (cellsUp (registerUp s))
  obtain ⟨hlanes, _⟩ := lanesUp_frame (decksUp (cellsUp (registerUp s)))
  have hyard := hdecks.trans hlanes
  have hx : ∀ (q : StoreArea × Nat) w, Notice.storeLost q.1 q.2 ≠ .laneStatus w := fun q w e => by cases e
  have hlost : p ∈ (lanesUp (decksUp (cellsUp (registerUp s)))).store.lostList := by
    rw [hyard.store]
    exact h
  intro l
  obtain ⟨_, hrole, hmask, _⟩ := hyard.links.fixed l
  have htold : (s.link l).told (s.storeIsUp.link l) (.storeLost p.1 p.2) :=
    told_of_fixed _ _ _ _ hrole hmask
      (told_foldl_offerAll (f := fun q : StoreArea × Nat => .storeLost q.1 q.2) hx hlost _ l)
  have hlater : OffersOnly s.storeIsUp.links (fillAll (journalUp s.storeIsUp)).links :=
    (journalUp_links _).trans (yard_fillAll _).links
  rw [comeUps_eq]
  exact told_endStart (hx p) (hlater.told _ l _ (hx p) htold)

end Sys2Proof.Machine
end

section
/-! PROOF. STORE_SCAN_DONE (R50, R87, R128, R142, R143, R162, R163, R166, R172, R201, R204, R205, R207): what the scan
finds, the backup domain cleared or kept, and the part as start-up ends. -/

namespace Sys2Proof.Machine

/-! ### The scan -/

theorem bad_iff_mismatch {α : Type} (c : SetupCell α) : c.bad = true ↔ c = .mismatch := by
  cases c <;> simp [SetupCell.bad]

/-- R143: an INVALID tare index is on the lost list. -/
theorem tare_mem_lost {st : Store} {i : Fin 256} (h : (st.tare.get i).cell = .mismatch) :
    (StoreArea.tare, i.val) ∈ st.lost :=
  List.mem_append_left _ (List.mem_map.mpr ⟨i, List.mem_filter.mpr ⟨List.mem_finRange i, by rw [h]; rfl⟩, rfl⟩)

theorem setup_mem_lost {st : Store} {i : Nat} (h : i ∈ st.lostSetup) : (StoreArea.setup, i) ∈ st.lost :=
  List.mem_append_right _ (List.mem_map.mpr ⟨i, h, rfl⟩)

/-- R143: the setup indices found INVALID, record by record. -/
theorem mem_lostSetup (st : Store) (i : Nat) : i ∈ st.lostSetup ↔
    (∃ c, (st.cal.get c).cell = .mismatch ∧ c.val = i) ∨ (∃ d, (st.deck.get d).cell = .mismatch ∧ 16 + d.val = i) ∨
      (∃ n, (st.lane.get n).cell = .mismatch ∧ 20 + n.val = i) ∨ st.yard.cell = .mismatch ∧ i = 24 := by
  have hchans : ∀ c, c ∈ allChans := List.mem_finRange
  have hdecks : ∀ d, d ∈ allDecks := by decide
  have hlanes : ∀ n, n ∈ allLanes := by decide
  have hyard : i ∈ (if st.yard.cell = .mismatch then [24] else []) ↔ st.yard.cell = .mismatch ∧ i = 24 := by
    split <;> simp [*]
  simp only [Store.lostSetup, List.mem_append, List.mem_map, List.mem_filter, hchans, hdecks, hlanes, true_and,
    bad_iff_mismatch, hyard, or_assoc]

/-- R142: the records in effect of the decks after the scan. -/
theorem scanStore_deck (s : State) (d : DeckId) :
    (scanStore s).deck d = { s.deck d with
      setup := (s.store.deck.get d).cell.inEffect DeckSetup.default, setupBad := (s.store.deck.get d).cell.bad } :=
  get_ofFn _ _

/-- R142: the scan leaves what is not the store's. -/
theorem scanStore_frame (s : State) :
    (scanStore s).clock = s.clock ∧ (scanStore s).register = s.register ∧ (scanStore s).journal = s.journal ∧
      (scanStore s).links = s.links ∧ (scanStore s).power = s.power := by
  unfold scanStore
  exact ⟨rfl, rfl, rfl, rfl, rfl⟩

/-! ### The backup check -/

/-- The part after the scan and the backup check (R204 steps 3 and 4). -/
def State.scanned (s : State) : State := backupCheck (scanStore s)

/-- R176, R201: what clearing does to the decks and the links. -/
theorem clearBackup_get (s : State) :
    (∀ d, (clearBackup s).deck d = { s.deck d with zd := 0, service := false }) ∧
      ∀ l, (clearBackup s).link l = { s.link l with mask := defaultMask (s.link l).role } :=
  ⟨fun _ => get_map _ _ _, fun _ => get_map _ _ _⟩

/-- R201, R202: what the check leaves in any case, and that the domain is valid after it. -/
theorem backupCheck_frame (s : State) :
    (backupCheck s).store = s.store ∧ (backupCheck s).lanes = s.lanes ∧
      (∀ d, ((backupCheck s).deck d).setup = (s.deck d).setup ∧
        ((backupCheck s).deck d).setupBad = (s.deck d).setupBad) ∧
      (backupCheck s).power.backupValid = (s.power.checkPending || s.power.backupValid) ∧
      (backupCheck s).power.checkPending = false := by
  obtain ⟨hskip, hvalid, hclear⟩ := backupCheck_spec s
  cases hp : s.power.checkPending with
  | false =>
    rw [hskip hp]
    exact ⟨rfl, rfl, fun _ => ⟨rfl, rfl⟩, rfl, hp⟩
  | true =>
    cases hv : s.power.backupValid with
    | true =>
      rw [hvalid hp hv]
      exact ⟨rfl, rfl, fun _ => ⟨rfl, rfl⟩, rfl, rfl⟩
    | false =>
      obtain ⟨hdeck, _⟩ := clearBackup_get s
      have hsetup : ∀ d, ((clearBackup s).deck d).setup = (s.deck d).setup ∧
          ((clearBackup s).deck d).setupBad = (s.deck d).setupBad := fun d => by
        rw [hdeck]
        exact ⟨rfl, rfl⟩
      rw [hclear hp hv]
      exact ⟨rfl, rfl, hsetup, rfl, rfl⟩

theorem afterReset_reset : Register.reset.afterReset = Register.reset := by
  simp [Register.afterReset, Register.reset, Register.bindingAfterReset]

/-- R201: a domain not checked or found valid is kept. -/
theorem backupCheck_keeps {s : State} (h : s.power.checkPending = false ∨ s.power.backupValid = true) :
    (backupCheck s).clock = s.clock ∧ (backupCheck s).register = s.register ∧ (backupCheck s).journal = s.journal ∧
      (backupCheck s).links = s.links := by
  obtain ⟨hskip, hvalid, _⟩ := backupCheck_spec s
  cases hp : s.power.checkPending with
  | false =>
    rw [hskip hp]
    exact ⟨rfl, rfl, rfl, rfl⟩
  | true =>
    rw [hvalid hp (h.resolve_left (by rw [hp]; decide))]
    exact ⟨rfl, rfl, rfl, rfl⟩

/-- R201, R202: a domain found not valid is cleared, and the start-up counts as a POWER_ON. -/
theorem backupCheck_clears {s : State} (hp : s.power.checkPending = true) (hv : s.power.backupValid = false) :
    (backupCheck s).clock = ⟨0, false, 0⟩ ∧ (backupCheck s).register = Register.reset ∧
      (backupCheck s).journal = Journal.reset ∧
      (∀ l, ((backupCheck s).link l).mask = defaultMask (s.link l).role) ∧
      (∀ d, ((backupCheck s).deck d).zd = 0 ∧ ((backupCheck s).deck d).service = false) ∧
      (backupCheck s).power.lastKind = .powerOn ∧ (backupCheck s).power.lastCheck = .cleared := by
  obtain ⟨hdeck, hlink⟩ := clearBackup_get s
  rw [(backupCheck_spec s).2.2 hp hv]
  refine ⟨rfl, rfl, rfl, fun l => ?_, fun d => ?_, rfl, rfl⟩
  · exact congrArg LinkState.mask (hlink l)
  · exact ⟨congrArg Deck.zd (hdeck d), congrArg Deck.service (hdeck d)⟩

theorem scanned_kept {s : State} (h : s.power.checkPending = false ∨ s.power.backupValid = true) :
    s.scanned.clock = s.clock ∧ s.scanned.register = s.register ∧ s.scanned.journal = s.journal ∧
      s.scanned.links = s.links := by
  obtain ⟨hclock, hregister, hjournal, hlinks, hpower⟩ := scanStore_frame s
  rw [← hpower] at h
  obtain ⟨hclock', hregister', hjournal', hlinks'⟩ := backupCheck_keeps h
  exact ⟨hclock'.trans hclock, hregister'.trans hregister, hjournal'.trans hjournal, hlinks'.trans hlinks⟩

/-- R162, R201: a link that has no role in the journal keeps none through a start-up. -/
theorem afterReset_fill_reset (rs : List Ticket) (r : Role) :
    ((JournalLink.reset.afterReset rs r).fill rs).1.role = .none ∧
      ((JournalLink.reset.afterReset rs r).fill rs).1.cursor = .absent ∧
      ((JournalLink.reset.afterReset rs r).fill rs).1.slotCount = 0 := by
  have hnone : JournalLink.reset.roleUnder r = .none := by cases r <;> rfl
  obtain ⟨_, _, _, hunfilled, _⟩ := afterReset_fill rs r JournalLink.reset
  rw [hunfilled hnone]
  cases r <;> exact ⟨rfl, rfl, rfl⟩

/-! ### The part as start-up ends -/

theorem exec_storeScanDone {s : State} (ht : s.taking = true) (hp : s.power.phase = .starting) :
    exec .storeScanDone s = .next (comeUps s.scanned) := by
  refine congrArg Host.Outcome.next (if_pos ?_)
  rw [ht, hp]
  rfl

section
variable {s t : State} (ht : t = comeUps s.scanned)
include ht

theorem scanDone_power : t.power.phase = .running ∧
    t.power.backupValid = (s.power.checkPending || s.power.backupValid) ∧ t.power.checkPending = false := by
  obtain ⟨_, _, _, _, hpower, _⟩ := comeUps_spec s.scanned
  obtain ⟨_, _, _, hvalid, hpending⟩ := backupCheck_frame (scanStore s)
  rw [ht, hpower]
  exact ⟨rfl, hvalid, hpending⟩

/-- R142: the store as the scan judges it. -/
theorem scanDone_store : t.store = { s.store.rescan with lostList := [] } ∧
    t.period = some (1250 * 2 ^ t.store.yardSetup.p) := by
  obtain ⟨_, _, _, hstore, _, _, hperiod, _⟩ := comeUps_spec s.scanned
  obtain ⟨hscanned, _⟩ := backupCheck_frame (scanStore s)
  have hrescan : s.scanned.store = s.store.rescan := hscanned
  rw [ht, hperiod, hstore, hrescan]
  exact ⟨rfl, rfl⟩

/-- R142, R50: each deck with its record in effect, in the state it comes up in. -/
theorem scanDone_deck (d : DeckId) :
    (t.deck d).setup = (s.store.deck.get d).cell.inEffect DeckSetup.default ∧
      (t.deck d).setupBad = (s.store.deck.get d).cell.bad ∧ (t.deck d).service = (s.scanned.deck d).service ∧
      (t.deck d).zd = clampTo (t.deck d).setup.zeroLimit (s.scanned.deck d).zd ∧
      (t.deck d).state = (if (t.deck d).setupBad = true ∨ t.members d = [] then .unused
        else if (t.deck d).service then .service else if t.register.mode = .closed then .sleep else .warming) := by
  obtain ⟨mask, hdeck⟩ := comeUps_deck s.scanned d
  obtain ⟨hstate, _, hsetup, hbad, hservice, hzd, _⟩ :=
    entered_frame ((s.scanned.deck d).comeUp mask) (firstState s.scanned d) .request
  obtain ⟨_, _, hsetups, _⟩ := backupCheck_frame (scanStore s)
  obtain ⟨hsetup', hbad'⟩ := hsetups d
  rw [scanStore_deck] at hsetup' hbad'
  obtain ⟨_, _, _, _, _, _, _, _, _, hmode, _⟩ := comeUps_spec s.scanned
  rw [← hdeck, ← ht] at hstate hsetup hbad hservice hzd
  refine ⟨hsetup.trans hsetup', hbad.trans hbad', hservice, ?_, ?_⟩
  · rw [hzd, hsetup]
    rfl
  · rw [← ht] at hmode
    rw [hstate]
    exact (firstState_congr (fun c => ht ▸ comeUps_cal s.scanned c) hbad hservice hmode).symm.trans (firstState_eq t d)

/-- R87: each lane reads its inputs and starts its timers. -/
theorem scanDone_lane (n : LaneId) :
    (t.lane n).resolution = some (t.lane n).setup.loopFilter ∧
      (t.lane n).clearLoop.occupied = ((s.lane n).clearLoop.faultIn || (s.lane n).clearLoop.level) ∧
      ((t.lane n).settle.isSome = true ↔ (t.lane n).clearLoop.occupied = false) := by
  obtain ⟨u, b, w, hlane⟩ := comeUps_lane s.scanned n
  obtain ⟨_, hlanes, _⟩ := backupCheck_frame (scanStore s)
  obtain ⟨u', b', hscan⟩ := scanStore_setups s n
  have hscanned : s.scanned.lane n = { s.lane n with setup := u', setupBad := b' } :=
    (congrArg (Vector.get · n) hlanes).trans hscan
  rw [ht, hlane, hscanned]
  refine ⟨rfl, rfl, ?_⟩
  cases hread : ((s.lane n).clearLoop.faultIn || (s.lane n).clearLoop.level) <;>
    simp [Lane.comeUp, Loop.fromInputs, hread]

/-- R143: every place the scan found torn is told. -/
theorem scanDone_lost {p : StoreArea × Nat} (h : p ∈ s.store.lost) : t.tells t (.storeLost p.1 p.2) := by
  obtain ⟨hscanned, _⟩ := backupCheck_frame (scanStore s)
  have hlost : p ∈ s.scanned.store.lostList := by
    rw [show s.scanned.store = s.store.rescan from hscanned]
    exact h
  obtain ⟨_, _, _, _, _, _, _, _, _, _, _, _, hlinks⟩ := comeUps_spec s.scanned
  subst ht
  intro l
  obtain ⟨_, hrole, hmask, _⟩ := hlinks.fixed l
  exact told_of_fixed _ _ _ _ hrole.symm hmask.symm (comeUps_told_lost hlost l)

theorem scanDone_setup_lost {i : Nat} (h : i ∈ s.store.lostSetup) : t.tells t (.storeLost .setup i) :=
  scanDone_lost ht (setup_mem_lost h)

/-- R201: a backup domain cleared whole. -/
theorem scanDone_cleared (hp : s.power.checkPending = true) (hv : s.power.backupValid = false) :
    t.clock = ⟨0, false, 0⟩ ∧ t.register = ⟨[], 1, #v[none, none, none, none], .closed⟩ ∧
      t.journal.records = [] ∧ t.journal.counter = none ∧
      (∀ l, (t.jlink l).role = .none ∧ (t.jlink l).cursor = .absent ∧ (t.jlink l).slotCount = 0 ∧
        (t.link l).mask = defaultMask (s.link l).role) ∧
      (∀ d, (t.deck d).zd = 0 ∧ (t.deck d).service = false) ∧
      t.power.lastKind = .powerOn ∧ t.power.lastCheck = .cleared := by
  obtain ⟨_, _, _, hscanLinks, hscanPower⟩ := scanStore_frame s
  rw [← hscanPower] at hp hv
  obtain ⟨hclock, hregister, hjournal, hmask, hdomain, hkind, hcheck⟩ := backupCheck_clears hp hv
  obtain ⟨hclock', _, _, _, hpower, _, _, hrecords, hcounter, _, _, _, hlinks⟩ := comeUps_spec s.scanned
  have hregister' := comeUps_register s.scanned
  have hplace := comeUps_jlink s.scanned
  have hdeck := scanDone_deck ht
  change s.scanned.register = _ at hregister
  change s.scanned.journal = _ at hjournal
  rw [← ht] at hclock' hpower hrecords hcounter hlinks hregister' hplace
  rw [hjournal] at hrecords hcounter
  refine ⟨hclock'.trans hclock, ?_, hrecords, hcounter, fun l => ?_, fun d => ?_, by rw [hpower]; exact hkind,
    by rw [hpower]; exact hcheck⟩
  · rw [hregister', hregister, afterReset_reset]
    rfl
  · have hjlink : s.scanned.jlink l = JournalLink.reset := by
      unfold State.jlink
      rw [hjournal]
      exact get_replicate _ _
    have hrole : ((scanStore s).link l).role = (s.link l).role := by
      unfold State.link
      rw [hscanLinks]
    obtain ⟨_, _, hkept, _⟩ := hlinks.fixed l
    obtain ⟨hnone, habsent, hcount⟩ := afterReset_fill_reset s.scanned.journal.records (s.scanned.link l).role
    rw [hplace, hjlink]
    exact ⟨hnone, habsent, hcount, hkept.trans ((hmask l).trans (congrArg defaultMask hrole))⟩
  · obtain ⟨_, _, hservice, hzd, _⟩ := hdeck d
    obtain ⟨hzero, hoff⟩ := hdomain d
    have hlimit : 0 ≤ (t.deck d).setup.zeroLimit := by
      unfold DeckSetup.zeroLimit
      omega
    obtain ⟨_, hin, _⟩ := clampTo_spec (t.deck d).setup.zeroLimit 0 hlimit
    refine ⟨?_, hservice.trans hoff⟩
    rw [hzd, show (s.scanned.deck d).zd = 0 from hzero]
    exact hin (by omega) hlimit

section
variable (hkept : s.power.checkPending = false ∨ s.power.backupValid = true)
include hkept

/-- R201: what a backup domain that is kept brings through the start-up. -/
theorem scanDone_kept :
    t.clock = s.clock ∧ t.register.mode = s.register.mode ∧ t.register.counter = s.register.counter ∧
      t.register.visits.map (·.number) = s.register.visits.map (·.number) ∧
      t.journal.records = s.journal.records ∧ t.journal.counter = s.journal.counter ∧
      ∀ l, (t.link l).mask = (s.link l).mask := by
  obtain ⟨hclock, hregister, hjournal, hlinks⟩ := scanned_kept hkept
  obtain ⟨hclock', _, _, _, _, _, _, hrecords, hcounter, hmode, hnext, hnumbers, hlinks'⟩ := comeUps_spec s.scanned
  rw [← ht] at hclock' hrecords hcounter hmode hnext hnumbers hlinks'
  rw [hregister] at hmode hnext hnumbers
  rw [hjournal] at hrecords hcounter
  rw [hlinks] at hlinks'
  exact ⟨hclock'.trans hclock, hmode, hnext, hnumbers, hrecords, hcounter, fun l => (hlinks'.fixed l).2.2.1⟩

/-- R128, R121: the visits as they live through the start-up. -/
theorem scanDone_visits : ∃ time limit,
    t.register.visits = s.register.visits.map (fun v => v.afterReset.judged time limit) := by
  obtain ⟨_, hregister, _⟩ := scanned_kept hkept
  refine ⟨s.scanned.clock.time, s.scanned.store.yardSetup.maxStay, ?_⟩
  rw [ht, comeUps_register, hregister]

theorem scanDone_visit_marks {v : Visit} (hv : v ∈ t.register.visits) :
    v.flags.restartSeen = true ∧ v.capMark = false ∧ v.state ≠ .weighOut := by
  obtain ⟨time, limit, hvisits⟩ := scanDone_visits ht hkept
  rw [hvisits] at hv
  obtain ⟨x, _, rfl⟩ := List.mem_map.mp hv
  obtain ⟨_, _, hseen, hmark, hstate⟩ := visitAfterReset_frame x
  rw [judged_eq]
  exact ⟨hseen, hmark, hstate⟩

/-- R128: each visit by its state and its capture mark. -/
theorem scanDone_visit {i : Nat} {v : Visit} (hv : s.register.visits[i]? = some v) :
    ∃ x, t.register.visits[i]? = some x ∧ x.state = (if v.state = .weighOut then .onSite else v.state) ∧
      x.failure =
        (if v.state = .weighOut ∨ v.state = .weighIn ∧ v.capMark = true then some .aborted else v.failure) ∧
      x.exitLane = (if v.state = .weighOut then none else v.exitLane) ∧
      x = { v with
        state := x.state, failure := x.failure, exitLane := x.exitLane, capMark := false
        flags := { v.flags with restartSeen := true, overstay := x.flags.overstay } } := by
  obtain ⟨time, limit, hvisits⟩ := scanDone_visits ht hkept
  refine ⟨v.afterReset.judged time limit, ?_, ?_⟩
  · rw [hvisits, List.getElem?_map, hv]
    rfl
  · rw [judged_eq, visitAfterReset_eq]
    exact ⟨rfl, rfl, rfl, rfl⟩

theorem scanDone_bound {n : LaneId} {v : Nat} (hn : s.bound n = some v) :
    t.bound n = (if (∃ x, s.register.find v = some x ∧ x.state = .weighOut) then none else some v) := by
  obtain ⟨_, hregister, _⟩ := scanned_kept hkept
  have hbound : s.scanned.bound n = some v := (bound_of_register hregister n).trans hn
  rw [ht, comeUps_bound s.scanned hbound, hregister]

/-- R162, R163, R166, R172: each link's place in the journal, and the fills it is told. -/
theorem scanDone_jlink (l : LinkId) :
    t.jlink l = (((s.jlink l).afterReset s.journal.records (s.link l).role).fill s.journal.records).1 ∧
      ∀ x, (∀ w, x ≠ .laneStatus w) →
        x ∈ (((s.jlink l).afterReset s.journal.records (s.link l).role).fill s.journal.records).2 →
        (s.link l).told (t.link l) x := by
  obtain ⟨_, _, hjournal, hlinks⟩ := scanned_kept hkept
  have hlink : s.scanned.link l = s.link l := congrArg (Vector.get · l) hlinks
  have hjlink : s.scanned.jlink l = s.jlink l := congrArg (fun j : Journal => j.links.get l) hjournal
  rw [← hlink, ← hjlink, ← hjournal, ht]
  exact ⟨comeUps_jlink s.scanned l, fun x hx h => comeUps_told_fill hx h⟩

theorem scanDone_journal (l : LinkId) :
    (t.jlink l).role = (s.jlink l).roleUnder (s.link l).role ∧ (t.jlink l).halt = false ∧ (t.jlink l).gap = 0 ∧
      ((s.link l).role = .disabled → (t.jlink l).cursor = .absent ∧ (t.jlink l).slotCount = 0 ∧
        (t.jlink l).even = none ∧ (t.jlink l).odd = none) := by
  obtain ⟨hplace, _⟩ := scanDone_jlink ht hkept l
  obtain ⟨hrole, hhalt, hgap, _, hdisabled⟩ := afterReset_fill s.journal.records (s.link l).role (s.jlink l)
  rw [hplace]
  exact ⟨hrole, hhalt, hgap, hdisabled⟩

theorem scanDone_fills {l : LinkId} (hj : s.journal.sequenced) (hr : (t.jlink l).role ≠ .none)
    (hc : (s.jlink l).cursor ≠ .absent) {w : List Ticket}
    (hw : w = s.journal.records.drop ((s.jlink l).cursor.place s.journal.records - (s.jlink l).slotCount)) :
    (t.jlink l).even = w[0]? ∧ (t.jlink l).odd = w[1]? ∧ (t.jlink l).slotCount = min 2 w.length ∧
      (t.jlink l).cursor = cursorAt w 2 ∧
      (∀ r, w[0]? = some r → (s.link l).told (t.link l) (.ticket .even r.number)) ∧
      ∀ r, w[1]? = some r → (s.link l).told (t.link l) (.ticket .odd r.number) := by
  obtain ⟨hplace, htold⟩ := scanDone_jlink ht hkept l
  obtain ⟨hrole, _⟩ := scanDone_journal ht hkept l
  obtain ⟨heven, hodd, hcount, hcursor, hnotices⟩ := afterReset_fill_waiting hj (hrole ▸ hr) hc hw
  rw [hnotices] at htold
  rw [hplace]
  refine ⟨heven, hodd, hcount, hcursor, fun r h => ?_, fun r h => ?_⟩
  · exact htold _ (fun _ e => by cases e) (by simp [h])
  · exact htold _ (fun _ e => by cases e) (by simp [h])

end

end

/-- Settles O52: the scan, the backup check and the come-ups, block by block. -/
theorem scanDoneEndsStartUp : Obligations.ScanDoneEndsStartUp := by
  intro s htaking hstarting
  obtain ⟨t, ht⟩ : ∃ t, t = comeUps s.scanned := ⟨_, rfl⟩
  obtain ⟨hphase, hvalid, hpending⟩ := scanDone_power ht
  obtain ⟨hstore, hperiod⟩ := scanDone_store ht
  refine ⟨t, ht ▸ exec_storeScanDone htaking hstarting, hphase, hvalid, hpending, fun i => ?_, fun d => ?_, hperiod,
    by rw [hstore]; rfl, by rw [hstore], scanDone_lane ht, fun i h => scanDone_lost ht (tare_mem_lost h),
    fun c h => scanDone_setup_lost ht ((mem_lostSetup _ _).mpr (.inl ⟨c, h, rfl⟩)),
    fun d h => scanDone_setup_lost ht ((mem_lostSetup _ _).mpr (.inr (.inl ⟨d, h, rfl⟩))),
    fun n h => scanDone_setup_lost ht ((mem_lostSetup _ _).mpr (.inr (.inr (.inl ⟨n, h, rfl⟩)))),
    fun h => scanDone_setup_lost ht ((mem_lostSetup _ _).mpr (.inr (.inr (.inr ⟨h, rfl⟩)))), fun d => ?_,
    scanDone_cleared ht, fun hkept => ?_⟩
  · have hslot : t.store.tare.get i = (s.store.tare.get i).rescan := by
      rw [hstore]
      exact get_map _ _ _
    rw [hslot]
    cases hcell : (s.store.tare.get i).cell <;> simp [TareSlot.rescan, TareCell.scanned, hcell]
  · obtain ⟨hsetup, hbad, _⟩ := scanDone_deck ht d
    rw [hsetup, hbad, bad_iff_mismatch]
    refine ⟨?_, Iff.rfl⟩
    cases (s.store.deck.get d).cell <;> rfl
  · obtain ⟨_, _, _, _, hstate⟩ := scanDone_deck ht d
    exact hstate
  · obtain ⟨hclock, hmode, hcounter, hnumbers, hrecords, hnext, hmask⟩ := scanDone_kept ht hkept
    refine ⟨hclock, hmode, hcounter, hnumbers, fun v => scanDone_visit_marks ht hkept, hrecords, hnext, hmask,
      fun i v => scanDone_visit ht hkept, fun n v => scanDone_bound ht hkept, fun l => ?_⟩
    obtain ⟨hrole, hhalt, hgap, hdisabled⟩ := scanDone_journal ht hkept l
    refine ⟨hrole, hhalt, hgap, hdisabled, fun hj hr hc => ?_⟩
    obtain ⟨heven, hodd, hcount, hcursor, hfirst, hsecond⟩ := scanDone_fills ht hkept hj hr hc rfl
    exact ⟨heven, hodd, hcount, hcursor, hfirst, hsecond⟩

end Sys2Proof.Machine
end

section
/-! PROOF. The held count and the numbering under the journal's operations (R145, R148, R150, R153 to R155, R162, R163,
R166, R169): a written record adds at most one to what a link holds, everything else adds nothing. -/

namespace Sys2Proof.Machine

/-! ### The held count -/

/-- R155: the held count is the largest outstanding count. -/
theorem held_le_iff {j : Journal} {b : Nat} : j.held ≤ b ↔ ∀ l, (j.links.get l).outstanding j.records ≤ b := by
  have hfold : ∀ (ns : List Nat) (a : Nat), ns.foldl max a ≤ b ↔ a ≤ b ∧ ∀ n ∈ ns, n ≤ b := by
    intro ns
    induction ns with
    | nil => simp
    | cons n ns ih => simp [ih, and_assoc]
  have hlist : j.held = (j.links.toList.map (·.outstanding j.records)).foldl max 0 := by
    rw [Journal.held, Vector.foldl_map, ← Vector.foldl_toList, List.foldl_map]
  rw [hlist, hfold]
  simp only [Nat.zero_le, true_and, List.forall_mem_map, Vector.mem_toList_iff]
  refine ⟨fun h l => h _ (by simp [Vector.get]), fun h k hk => ?_⟩
  obtain ⟨i, hi, rfl⟩ := Vector.getElem_of_mem hk
  exact h ⟨i, hi⟩

theorem outstanding_le_held (j : Journal) (l : LinkId) : (j.links.get l).outstanding j.records ≤ j.held :=
  held_le_iff.mp (Nat.le_refl _) l

/-- Where no link's outstanding records grow by more than a number, the held count does not either. -/
theorem held_le_add {j j' : Journal} {n : Nat}
    (h : ∀ l, (j'.links.get l).outstanding j'.records ≤ (j.links.get l).outstanding j.records + n) :
    j'.held ≤ j.held + n :=
  held_le_iff.mpr fun l => (h l).trans (Nat.add_le_add_right (outstanding_le_held j l) n)

theorem held_le_of_links {j j' : Journal}
    (h : ∀ l, (j'.links.get l).outstanding j'.records ≤ (j.links.get l).outstanding j.records) : j'.held ≤ j.held :=
  held_le_add (n := 0) h

/-! ### A record written -/

/-- R145, R148, R150: a written record continues the numbering. -/
theorem place_sequenced {j : Journal} {num : Nat} (h : j.sequenced) (hc : j.counter = some num) (t : Ticket) :
    (j.place num t).sequenced := by
  obtain ⟨hlen, hrange, hnumbered⟩ := h
  rw [hc] at hnumbered
  obtain ⟨hlow, hhigh, hnumbered⟩ := hnumbered
  have hkept : roomFor j.records ⊆ j.records ∧ numbered (roomFor j.records) num := by
    unfold roomFor
    split
    · exact ⟨fun _ h => h, hnumbered⟩
    · exact ⟨List.drop_subset _ _, numbered_drop _ _ hnumbered⟩
  refine ⟨?_, fun x hx => ?_, ?_⟩
  · have := roomFor_length j.records hlen
    show (roomFor j.records ++ [_]).length ≤ 512
    rw [List.length_append, List.length_singleton]
    omega
  · obtain hx | hx := List.mem_append.mp hx
    · exact hrange x (hkept.1 hx)
    · rw [List.mem_singleton.mp hx]
      exact ⟨hlow, hhigh⟩
  · obtain ⟨h1, h2⟩ := nextTicket_range num hhigh
    exact ⟨h1, h2, numbered_append _ { t with number := num } hkept.2⟩

/-- R145: the records from a number on are no more once the oldest may have been removed. -/
theorem recordsFrom_roomFor_length (rs : List Ticket) (n : Nat) :
    (recordsFrom (roomFor rs) n).length ≤ (recordsFrom rs n).length := by
  unfold roomFor
  split
  · exact Nat.le_refl _
  · cases rs with
    | nil => exact Nat.le_refl _
    | cons a rs =>
      by_cases hn : a.number = n
      · have hall : recordsFrom (a :: rs) n = a :: rs := List.dropWhile_cons_of_neg (by simpa using hn)
        rw [hall]
        exact (recordsFrom_length rs n).trans (Nat.le_succ _)
      · have hskip : recordsFrom (a :: rs) n = recordsFrom rs n := List.dropWhile_cons_of_pos (by simpa using hn)
        rw [hskip]
        exact Nat.le_refl _

/-- A record placed after the newest adds at most itself to those from a number on. -/
theorem recordsFrom_append_length (rs : List Ticket) (t : Ticket) (n : Nat) :
    (recordsFrom (rs ++ [t]) n).length ≤ (recordsFrom rs n).length + 1 := by
  unfold recordsFrom
  rw [List.dropWhile_append]
  split
  · exact ((List.dropWhile_suffix _).length_le).trans (Nat.le_add_left _ _)
  · simp

/-- R150, R151: a cursor at the head names the new record, and no other waits behind it. -/
theorem recordsFrom_place {j : Journal} {num : Nat} (h : j.sequenced) (hc : j.counter = some num) (t : Ticket) :
    (recordsFrom (j.place num t).records num).length = 1 := by
  have hnew : (j.place num t).records[(roomFor j.records).length]? = some { t with number := num } :=
    List.getElem?_concat_length
  have hfrom := recordsFrom_at _ (sequenced_nodup (place_sequenced h hc t)) _ _ hnew
  rw [show recordsFrom (j.place num t).records num = _ from hfrom]
  simp [Journal.place]

/-- R151, R155, R159: a write adds at most the new record to what a link holds. -/
theorem outstanding_place {j : Journal} {num : Nat} (h : j.sequenced) (hc : j.counter = some num) (t : Ticket)
    (l : LinkId) :
    ((j.place num t).links.get l).outstanding (j.place num t).records ≤
      (j.links.get l).outstanding j.records + 1 := by
  obtain ⟨hrecords, _, _, hlinks⟩ := place_spec j num t
  have hfresh := recordsFrom_place h hc t
  rw [hlinks]
  generalize j.links.get l = k
  unfold JournalLink.afterWrite
  cases hk : k.cursor with
  | absent =>
    have hsame : k.outstanding (j.place num t).records = k.outstanding j.records := by
      simp only [JournalLink.outstanding, hk, waitingRecords]
    exact hsame.trans_le (Nat.le_succ _)
  | head =>
    dsimp only
    unfold JournalLink.outstanding
    split
    · simp [waitingRecords, hfresh, hk]
    · exact Nat.zero_le _
  | record n =>
    dsimp only
    split
    · rename_i hfollow
      rw [outstanding_of_not_hold _ _ (by rw [hfollow.1]; decide)]
      exact Nat.zero_le _
    · unfold JournalLink.outstanding
      split
      · have happend := recordsFrom_append_length (roomFor j.records) { t with number := num } n
        have hroom := recordsFrom_roomFor_length j.records n
        rw [hk, hrecords]
        dsimp only [waitingRecords]
        omega
      · exact Nat.zero_le _

/-- R155, R156: a write raises the held count by one at most. -/
theorem held_place {j : Journal} {num : Nat} (h : j.sequenced) (hc : j.counter = some num) (t : Ticket) :
    (j.place num t).held ≤ j.held + 1 :=
  held_le_add (outstanding_place h hc t)

/-! ### Places in the journal -/

/-- R153: past the first of the records waiting at a cursor, the others wait. -/
theorem waiting_cursorPast {rs : List Ticket} (h : (rs.map (·.number)).Nodup) {c : Cursor} {t : Ticket}
    {rest : List Ticket} (hw : waitingRecords rs c = t :: rest) : waitingRecords rs (cursorPast rest) = rest := by
  have hsuffix : rest <:+ rs := by
    cases c with
    | absent | head => cases hw
    | record n =>
      have hfrom : t :: rest <:+ rs := hw ▸ List.dropWhile_suffix _
      exact (List.suffix_cons t rest).trans hfrom
  rw [List.suffix_iff_eq_drop.mp hsuffix, cursorPast_at, waiting_at rs h]

/-- R153, R155, R166: a fill moves a record from the waiting ones to a slot. -/
theorem outstanding_fillOnce {rs : List Ticket} (h : (rs.map (·.number)).Nodup) (k : JournalLink) :
    (k.fillOnce rs).1.outstanding rs = k.outstanding rs := by
  unfold JournalLink.fillOnce
  split
  · split
    · rfl
    · rename_i t rest hw
      obtain ⟨hrole, _⟩ := setSlot_frame k k.next (some t)
      unfold JournalLink.outstanding
      dsimp only
      rw [hrole, waiting_cursorPast h hw, hw, List.length_cons]
      split
      · omega
      · rfl
  · rfl

theorem outstanding_fill {rs : List Ticket} (h : (rs.map (·.number)).Nodup) (k : JournalLink) :
    (k.fill rs).1.outstanding rs = k.outstanding rs :=
  (outstanding_fillOnce h (k.fillOnce rs).1).trans (outstanding_fillOnce h k)

/-- R154: a link that takes a role holds nothing. -/
theorem outstanding_takeRole (rs : List Ticket) (k : JournalLink) (r : JournalRole) :
    (k.takeRole r).outstanding rs = 0 := by
  rw [takeRole_spec]
  cases r <;> rfl

/-- R155, R169: a slot given back releases its record. -/
theorem outstanding_giveBack (rs : List Ticket) (k : JournalLink) (i : SlotId) :
    (k.giveBack i).outstanding rs ≤ k.outstanding rs := by
  obtain ⟨hrole, hcursor, _⟩ := setSlot_frame k i none
  unfold JournalLink.outstanding JournalLink.giveBack
  dsimp only
  rw [hrole, hcursor]
  split
  · omega
  · exact Nat.le_refl _

/-- R153: as many records wait at a cursor as stand from its place on. -/
theorem waiting_place_length (rs : List Ticket) (c : Cursor) :
    rs.length - cursorPlace rs c = (waitingRecords rs c).length := by
  cases c with
  | absent | head => exact Nat.sub_self _
  | record n =>
    have := recordsFrom_length rs n
    simp only [cursorPlace, waitingRecords]
    omega

/-- R155, R162: the cursor moved back by the slot count takes up the records of the slots, and no more. -/
theorem waiting_rewindCursor {rs : List Ticket} (h : (rs.map (·.number)).Nodup) (count : Nat) (c : Cursor) :
    (waitingRecords rs (rewindCursor rs count c)).length ≤ count + (waitingRecords rs c).length := by
  have hplace := waiting_place_length rs c
  have hback : (waitingRecords rs (cursorAt rs (cursorPlace rs c - count))).length ≤
      count + (waitingRecords rs c).length := by
    rw [waiting_at rs h, List.length_drop]
    omega
  cases c with
  | absent => exact Nat.zero_le _
  | head | record n => exact hback

/-- R163: the straps can only end a HOLD. -/
theorem outstanding_adjust (rs : List Ticket) (r : Role) (k : JournalLink) :
    (k.adjust r).outstanding rs ≤ k.outstanding rs := by
  cases r with
  | disabled => exact Nat.zero_le _
  | gate | office => exact Nat.le_refl _
  | kiosk =>
    unfold JournalLink.adjust
    dsimp only
    split
    · exact Nat.zero_le _
    · exact Nat.le_refl _

/-- R155, R162, R163: a reset adds nothing to what a link holds. -/
theorem outstanding_afterReset {rs : List Ticket} (h : (rs.map (·.number)).Nodup) (r : Role) (k : JournalLink) :
    (k.afterReset rs r).outstanding rs ≤ k.outstanding rs := by
  have hrewound := waiting_rewindCursor h k.slotCount k.cursor
  refine (outstanding_adjust rs r _).trans ?_
  unfold JournalLink.outstanding
  dsimp only
  split
  · omega
  · exact Nat.le_refl _

/-- R162, R172: the role, cursor and slot count that a reset keeps are what a link's outstanding records are judged by. -/
theorem outstanding_cleared (rs : List Ticket) (k : JournalLink) : k.cleared.outstanding rs = k.outstanding rs := rfl

end Sys2Proof.Machine
end

section
/-! PROOF. The visits not RELEASED under the moves of a register (R94, R98, R104 to R107, R113, R116, R128): no move but an
admission adds to them, and a release, or the leaving of a visit not RELEASED, takes one away. -/

namespace Sys2Proof.Machine

/-! ### Distinct visits, whatever the bindings -/

/-- The register with every binding ended: what holds of its visits does not turn on R98. -/
def Register.allUnbound (r : Register) : Register := { r with bindings := Vector.replicate 4 none }

theorem Register.distinct.allUnbound {r : Register} (h : r.distinct) : r.allUnbound.Sound := by
  have hnone : ∀ n v, r.allUnbound.bindings.get n ≠ some v := fun n v e => by
    have hget : r.allUnbound.bindings.get n = none := by simp [Register.allUnbound, Vector.get]
    cases hget.symm.trans e
  exact ⟨h, fun n v e => absurd e (hnone n v), fun n _ v e => absurd e (hnone n v)⟩

/-- A change that keeps the visits distinct and adds none that is not RELEASED. -/
def Register.sheds (r r' : Register) : Prop := r.distinct → r'.distinct ∧ r'.unreleased ≤ r.unreleased

theorem Register.sheds.refl (r : Register) : r.sheds r := fun h => ⟨h, Nat.le_refl _⟩

/-- Bindings and mode are no matter of it. -/
theorem sheds_of_visits {r r' : Register} (hv : r'.visits = r.visits) (hc : r'.counter = r.counter) : r.sheds r' := by
  unfold Register.sheds Register.distinct Register.unreleased
  rw [hv, hc]
  exact fun h => ⟨h, Nat.le_refl _⟩

/-- Visits changed in place: numbers and registrations stay, and a RELEASED visit stays RELEASED. -/
theorem sheds_map {r r' : Register} (f : Visit → Visit) (hv : r'.visits = r.visits.map f) (hc : r'.counter = r.counter)
    (hf : r.distinct → ∀ x ∈ r.visits, (f x).number = x.number ∧ (f x).plate = x.plate ∧
      (x.state = .released → (f x).state = .released)) : r.sheds r' := by
  intro h
  have hsound : r'.allUnbound.Sound :=
    staysSound_map (r := r.allUnbound) f hv hc (fun _ x hx => ⟨(hf h x hx).1, (hf h x hx).2.1⟩)
      (fun _ n v e => by simp [Register.allUnbound, Vector.get] at e) h.allUnbound
  refine ⟨hsound.distinct, ?_⟩
  unfold Register.unreleased
  rw [hv, List.countP_map]
  refine List.countP_mono_left (fun x hx hstate => ?_)
  obtain ⟨_, _, hreleased⟩ := hf h x hx
  simp only [Function.comp, bne_iff_ne, ne_eq] at hstate ⊢
  exact fun e => hstate (hreleased e)

section
variable {r : Register} {v : Nat} {f : Visit → Visit}

/-- One visit changed. -/
theorem sheds_update (hf : ∀ x, r.find v = some x → (f x).number = v ∧ (f x).plate = x.plate ∧
    (x.state = .released → (f x).state = .released)) : r.sheds (r.update v f) := by
  refine sheds_map _ rfl rfl (fun h x hx => ?_)
  split
  · rename_i hn
    have hv : x.number = v := beq_iff_eq.mp hn
    obtain ⟨hnum, hplate, hstate⟩ := hf x (hv ▸ find_of_mem h hx)
    exact ⟨hnum.trans hv.symm, hplate, hstate⟩
  · exact ⟨rfl, rfl, id⟩

theorem sheds_update_unbind (hf : ∀ x, r.find v = some x → (f x).number = v ∧ (f x).plate = x.plate ∧
    (x.state = .released → (f x).state = .released)) : r.sheds ((r.update v f).unbind v) :=
  fun h => sheds_update hf h

end

theorem leave_distinct {r : Register} (h : r.distinct) (v : Nat) : (r.leave v).distinct :=
  (staysSound_leave r.allUnbound v h.allUnbound).distinct

theorem sheds_leave (r : Register) (v : Nat) : r.sheds (r.leave v) :=
  fun h => ⟨leave_distinct h v, List.filter_sublist.countP_le⟩

/-- R128: a reset takes a WEIGH_OUT visit back to ON_SITE, and leaves a RELEASED one. -/
theorem sheds_afterReset (r : Register) : r.sheds r.afterReset := by
  refine sheds_map Visit.afterReset rfl rfl (fun _ x _ => ?_)
  obtain ⟨hnum, hplate, _⟩ := visitAfterReset_frame x
  refine ⟨hnum, hplate, fun hs => ?_⟩
  rw [visitAfterReset_eq, hs]
  rfl

/-! ### One visit fewer that is not RELEASED -/

/-- A property that fails where another does, and on one more element, holds less often. -/
theorem countP_lt_of_mem {α : Type} {p q : α → Bool} {l : List α} {x : α} (h : ∀ y ∈ l, q y = true → p y = true)
    (hx : x ∈ l) (hp : p x = true) (hq : q x = false) : l.countP q + 1 ≤ l.countP p := by
  obtain ⟨a, b, rfl⟩ := List.append_of_mem hx
  have ha : a.countP q ≤ a.countP p := List.countP_mono_left (fun y hy => h y (by simp [hy]))
  have hb : b.countP q ≤ b.countP p := List.countP_mono_left (fun y hy => h y (by simp [hy]))
  simp only [List.countP_append, List.countP_cons, hp, hq]
  simp only [if_true, Bool.false_eq_true, if_false]
  omega

/-- R113: a release takes one visit from those not RELEASED. -/
theorem unreleased_release {r : Register} {v w : Visit} (hv : r.find w.number = some v)
    (hs : v.state ≠ .released) (hw : w.state = .released) :
    (r.update w.number (fun _ => w)).unreleased + 1 ≤ r.unreleased := by
  obtain ⟨hmem, hnum⟩ := find_some hv
  unfold Register.unreleased Register.update
  rw [List.countP_map]
  refine countP_lt_of_mem (fun x hx => ?_) hmem (by simpa using hs) (by simp [hnum, hw])
  by_cases hn : x.number = w.number
  · simp [hn, hw]
  · simp [hn]

/-- R118: so does the leaving of a visit not RELEASED. -/
theorem unreleased_leave {r : Register} {v : Visit} (hv : r.find v.number = some v) (hs : v.state ≠ .released) :
    (r.leave v.number).unreleased + 1 ≤ r.unreleased := by
  obtain ⟨hmem, _⟩ := find_some hv
  unfold Register.unreleased Register.leave
  rw [List.countP_filter]
  refine countP_lt_of_mem (fun x _ h => ?_) hmem (by simpa using hs) (by simp)
  exact (Bool.and_eq_true_iff.mp h).1

end Sys2Proof.Machine
end

section
/-! PROOF. What the operations of the yard do to the journal and the register together (R145, R148, R150, R155 to R157): a
written record is paid for by a visit that is RELEASED or leaves, and no other operation adds to held records or to
visits not RELEASED. -/

namespace Sys2Proof.Machine

/-! ### The journal within the ring -/

/-- R148, R150, R157: the records numbered up to the counter, the visits distinct, and the held records with the visits not
RELEASED within the ring. -/
structure State.InRing (s : State) : Prop where
  sequenced : s.journal.sequenced
  distinct : s.register.distinct
  headroom : s.withinHeadroom

theorem State.InRing.nodup {s : State} (h : s.InRing) : (s.journal.records.map (·.number)).Nodup :=
  sequenced_nodup h.sequenced

/-- An operation after which the journal still is within the ring. -/
def State.keepsRing (s t : State) : Prop := s.InRing → t.InRing

theorem State.keepsRing.refl (s : State) : s.keepsRing s := id

theorem State.keepsRing.trans {a b c : State} (h : a.keepsRing b) (h' : b.keepsRing c) : a.keepsRing c := h' ∘ h

theorem keepsRing_foldl {α : Type} {f : State → α → State} (hf : ∀ (u : State) a, u.keepsRing (f u a)) (l : List α)
    (s : State) : s.keepsRing (l.foldl f s) := by
  induction l generalizing s with
  | nil => exact .refl s
  | cons a l ih => exact (hf s a).trans (ih _)

/-- An operation done where a condition holds. -/
theorem keepsRing_ite {p : Prop} [Decidable p] {s t u : State} (ht : s.keepsRing t) (hu : s.keepsRing u) :
    s.keepsRing (if p then t else u) := by
  split
  · exact ht
  · exact hu

/-- R145, R148: the numbering turns on the records and the counter alone. -/
theorem sequenced_of_records {j j' : Journal} (hr : j'.records = j.records) (hc : j'.counter = j.counter)
    (h : j.sequenced) : j'.sequenced := by
  unfold Journal.sequenced
  rw [hr, hc]
  exact h

/-- No record is written: the links hold no more than before, and no visit is added to those not RELEASED. -/
theorem keepsRing_of_parts {s t : State} (hr : t.journal.records = s.journal.records)
    (hc : t.journal.counter = s.journal.counter)
    (hl : s.InRing → ∀ l, (t.jlink l).outstanding s.journal.records ≤ (s.jlink l).outstanding s.journal.records)
    (hv : s.register.sheds t.register) : s.keepsRing t := by
  intro h
  obtain ⟨hdistinct, hunreleased⟩ := hv h.distinct
  have hheld : t.journal.held ≤ s.journal.held := held_le_of_links fun l => by
    rw [hr]
    exact hl h l
  have hroom : s.journal.held + s.register.unreleased ≤ 512 := h.headroom
  refine ⟨sequenced_of_records hr hc h.sequenced, hdistinct, ?_⟩
  show t.journal.held + t.register.unreleased ≤ 512
  omega

/-- The journal is the same, its LOW mark apart. -/
theorem keepsRing_of_lowOnly {s t : State} (hj : s.lowOnly t) (hv : s.register.sheds t.register) : s.keepsRing t := by
  unfold State.lowOnly at hj
  refine keepsRing_of_parts (by rw [hj]) (by rw [hj]) (fun _ l => ?_) hv
  unfold State.jlink
  rw [hj]

theorem keepsRing_of_journal {s t : State} (hj : t.journal = s.journal) (hv : s.register.sheds t.register) :
    s.keepsRing t := keepsRing_of_lowOnly (lowOnly_of_journal hj) hv

/-- What lies outside the journal and the register may change. -/
theorem keepsRing_of_same {s t : State} (hj : t.journal = s.journal) (hr : t.register = s.register) :
    s.keepsRing t := keepsRing_of_journal hj (hr ▸ .refl _)

theorem State.keepsRing.after {s u t : State} (h : u.keepsRing t) (hj : u.journal = s.journal)
    (hr : u.register = s.register) : s.keepsRing t := (keepsRing_of_same hj hr).trans h

/-- Places in the journal changed so that no link holds more. -/
theorem keepsRing_of_links {s t : State} (hr : t.journal.records = s.journal.records)
    (hc : t.journal.counter = s.journal.counter) (hv : t.register = s.register)
    (hl : s.InRing → ∀ l, (t.jlink l).outstanding s.journal.records ≤ (s.jlink l).outstanding s.journal.records) :
    s.keepsRing t := keepsRing_of_parts hr hc hl (hv ▸ .refl _)

/-- R150, R156: a record is written, and one visit fewer is not RELEASED. -/
theorem keepsRing_of_write {s t : State} {x : Ticket} (hj : t.journal = (writeRecord x s).journal)
    (hv : s.register.distinct → t.register.distinct ∧ t.register.unreleased + 1 ≤ s.register.unreleased) :
    s.keepsRing t := by
  intro h
  obtain ⟨hdistinct, hunreleased⟩ := hv h.distinct
  obtain ⟨_, _, hunset, hset⟩ := writeRecord_frame x s
  have hroom : s.journal.held + s.register.unreleased ≤ 512 := h.headroom
  have hwritten : t.journal.sequenced ∧ t.journal.held ≤ s.journal.held + 1 := by
    cases hc : s.journal.counter with
    | none =>
      rw [hj, hunset hc]
      exact ⟨h.sequenced, Nat.le_succ _⟩
    | some num =>
      rw [hj, hset num hc]
      exact ⟨place_sequenced h.sequenced hc x, held_place h.sequenced hc x⟩
  refine ⟨hwritten.1, hdistinct, ?_⟩
  have hheld := hwritten.2
  show t.journal.held + t.register.unreleased ≤ 512
  omega

/-! ### Links of the journal -/

/-- R155: one link's place changed so that it holds no more. -/
theorem keepsRing_setJlink {s : State} {l : LinkId} {k : JournalLink}
    (h : s.InRing → k.outstanding s.journal.records ≤ (s.jlink l).outstanding s.journal.records) :
    s.keepsRing (s.setJlink l k) := by
  refine keepsRing_of_links rfl rfl rfl (fun hs m => ?_)
  by_cases hm : m = l
  · subst hm
    rw [setJlink_jlink_self]
    exact h hs
  · rw [setJlink_jlink_ne _ _ hm]

theorem keepsRing_judgeLow (s : State) : s.keepsRing (judgeLow s) := keepsRing_of_lowOnly rfl (.refl _)

theorem keepsRing_fillLink (l : LinkId) (s : State) : s.keepsRing (fillLink l s) :=
  State.keepsRing.trans (b := s.setJlink l ((s.jlink l).fill s.journal.records).1)
    (keepsRing_setJlink fun h => (outstanding_fill h.nodup _).le) (keepsRing_of_same rfl rfl)

theorem keepsRing_fillAll (s : State) : s.keepsRing (fillAll s) :=
  keepsRing_foldl (fun u l => keepsRing_fillLink l u) allLinks s

/-- R155, R156, R169. -/
theorem keepsRing_returnSlot (l : LinkId) (i : SlotId) (s : State) : s.keepsRing (returnSlot l i s) :=
  ((keepsRing_setJlink fun _ => outstanding_giveBack _ _ i).trans (keepsRing_fillLink l _)).trans (keepsRing_judgeLow _)

/-- R154, R156: the holds of the link end. -/
theorem keepsRing_takeJournalRole (l : LinkId) (r : JournalRole) (s : State) : s.keepsRing (takeJournalRole l r s) :=
  (keepsRing_setJlink fun _ => (outstanding_takeRole _ _ r).trans_le (Nat.zero_le _)).trans (keepsRing_judgeLow _)

theorem keepsRing_setHalt (l : LinkId) (b : Bool) (s : State) : s.keepsRing (s.setHalt l b) :=
  keepsRing_setJlink fun _ => Nat.le_refl _

/-! ### Lanes -/

theorem takePassage_sheds (n : LaneId) (c : CauseKind) (s : State) : s.register.sheds (takePassage n c s).register := by
  unfold takePassage
  cases c with
  | admitted v =>
    dsimp only
    split
    · rename_i hentering
      refine sheds_update_unbind (fun x hx => ⟨(find_some hx).2, rfl, fun hs => ?_⟩)
      simp [hx, hs] at hentering
    · exact .refl _
  | released v =>
    dsimp only
    split
    · exact sheds_leave _ v
    · exact .refl _
  | manual | safety => exact .refl _

theorem keepsRing_applyLane (n : LaneId) (r : LaneStep) (s : State) : s.keepsRing (applyLane n r s) := by
  refine keepsRing_of_journal ?_ ?_
  · rw [(applyLane_frame n r s).1]
  · rw [applyLane_register]
    cases r.passage with
    | none => exact .refl _
    | some c => exact takePassage_sheds n c s

theorem keepsRing_raiseIfOccupied (n : LaneId) (c : CauseKind) (s : State) : s.keepsRing (raiseIfOccupied n c s) :=
  keepsRing_ite (keepsRing_applyLane n _ s) (.refl s)

theorem keepsRing_withdrawLane (n : LaneId) (v : Nat) (s : State) : s.keepsRing (withdrawLane n v s) :=
  keepsRing_applyLane n _ s

/-! ### Captures -/

/-- R113, R150: a visit that was not RELEASED is released with its record. -/
theorem keepsRing_releaseVisit {v x : Visit} {s : State} (hx : s.register.find v.number = some x)
    (hp : v.plate = x.plate) (hs : x.state ≠ .released) : s.keepsRing (releaseVisit v s) := by
  refine keepsRing_of_write (x := v.releaseTicket s.clock.time) rfl (fun hd => ?_)
  rw [releaseVisit_register]
  have hsheds : s.register.sheds (s.register.update v.number (fun _ => v.released s.journal.counter)) :=
    sheds_update (fun y hy => by
      cases hx.symm.trans hy
      exact ⟨rfl, hp, fun _ => rfl⟩)
  exact ⟨(hsheds hd).1, unreleased_release (w := v.released s.journal.counter) hx hs rfl⟩

theorem keepsRing_entryOutcome (n : LaneId) {v : Visit} (o : CapOutcome) {s : State}
    (hv : s.register.find v.number = some v) (hs : v.state = .weighIn) : s.keepsRing (entryOutcome n v o s) := by
  have hweighing : ∀ x, s.register.find v.number = some x → x.state ≠ .released := by
    intro x hx
    cases hv.symm.trans hx
    rw [hs]
    decide
  unfold entryOutcome
  split
  · refine State.keepsRing.trans ?_ (keepsRing_raiseIfOccupied _ _ _)
    exact keepsRing_of_journal rfl
      (sheds_update (fun x hx => ⟨(find_some hx).2, rfl, fun h => absurd h (hweighing x hx)⟩))
  · exact keepsRing_of_journal rfl (sheds_leave _ _)
  · exact keepsRing_of_journal rfl (sheds_update (fun x hx => ⟨(find_some hx).2, rfl, id⟩))

theorem keepsRing_exitOutcome (n : LaneId) {v : Visit} (o : CapOutcome) {s : State}
    (hv : s.register.find v.number = some v) (hs : v.state = .weighOut) : s.keepsRing (exitOutcome n v o s) := by
  have hstate : v.state ≠ .released := by
    rw [hs]
    decide
  unfold exitOutcome
  split
  · exact ((keepsRing_releaseVisit (v := v.weighedOut _) hv rfl hstate).trans
      (keepsRing_raiseIfOccupied _ _ _)).trans (keepsRing_fillAll _)
  · refine keepsRing_of_journal rfl (sheds_update_unbind (fun x hx => ⟨(find_some hx).2, rfl, fun h => ?_⟩))
    cases hv.symm.trans hx
    exact absurd h hstate

/-- R106: an outcome reaches a visit only in the state its kind asks. -/
theorem keepsRing_handOutcome (n : LaneId) (w : CapOwner) (o : CapOutcome) (s : State) :
    s.keepsRing (handOutcome n w o s) := by
  unfold handOutcome
  cases w with
  | spot l => exact .refl s
  | visitIn v =>
    dsimp only
    split
    · exact .refl s
    · rename_i x hx
      split
      · rename_i hc
        exact keepsRing_entryOutcome n o ((find_some hx).2.symm ▸ hx) hc.1
      · exact .refl s
  | visitOut v =>
    dsimp only
    split
    · exact .refl s
    · rename_i x hx
      split
      · rename_i hc
        exact keepsRing_exitOutcome n o ((find_some hx).2.symm ▸ hx) hc.1
      · exact .refl s

theorem keepsRing_endCapture (d : DeckId) (o : CapOutcome) (s : State) : s.keepsRing (endCapture d o s) := by
  unfold endCapture
  split
  · exact .refl s
  · exact (keepsRing_handOutcome d _ o _).after rfl rfl

theorem keepsRing_endVisitCapture (d : DeckId) (v : Nat) (s : State) : s.keepsRing (endVisitCapture d v s) := by
  unfold endVisitCapture
  split
  · exact .refl s
  · exact keepsRing_ite (keepsRing_endCapture d _ s) (.refl s)

/-! ### Decks -/

theorem startTimeout_journal (d : DeckId) (s : State) : (startTimeout d s).journal = s.journal := by
  unfold startTimeout
  split
  · rfl
  · split <;> rfl

theorem keepsRing_deckChange (d : DeckId) (new : DeckState) (c : WakeCause) (s : State) :
    s.keepsRing (deckChange d new c s) := by
  have htold : ∀ u : State, u.keepsRing (onDeckState d new u) := by
    intro u
    unfold onDeckState
    cases new with
    | active => exact keepsRing_of_same (startTimeout_journal d u) (startTimeout_register d u)
    | warming => exact .refl u
    | fault | service | sleep | unused => exact keepsRing_endCapture d _ u
  exact (htold (enterDeck d new c s)).after rfl rfl

theorem keepsRing_leaveFault (d : DeckId) (s : State) : s.keepsRing (leaveFault d s) :=
  keepsRing_ite (keepsRing_deckChange d _ _ s) (.refl s)

theorem keepsRing_enterFault (d : DeckId) (s : State) : s.keepsRing (enterFault d s) :=
  keepsRing_ite (keepsRing_deckChange d _ _ s) (.refl s)

theorem keepsRing_leaveUnused (d : DeckId) (s : State) : s.keepsRing (leaveUnused d s) :=
  keepsRing_ite (keepsRing_deckChange d _ _ s) (.refl s)

theorem keepsRing_becomeUnused (d : DeckId) (s : State) : s.keepsRing (becomeUnused d s) :=
  keepsRing_ite (keepsRing_deckChange d _ _ s) (.refl s)

theorem keepsRing_wakeForRequest (d : DeckId) (s : State) : s.keepsRing (wakeForRequest d s) :=
  keepsRing_of_same (quiet_wakeForRequest d s).journal (wakeForRequest_register d s)

theorem keepsRing_startCapture (d : DeckId) (w : CapOwner) (s : State) : s.keepsRing (startCapture d w s) :=
  (keepsRing_endCapture d _ s).trans ((keepsRing_wakeForRequest d _).after rfl rfl)

theorem keepsRing_withMode (s : State) (m : YardMode) : s.keepsRing (s.withMode m) :=
  keepsRing_of_journal rfl (sheds_of_visits rfl rfl)

theorem keepsRing_becomeClosed (s : State) : s.keepsRing (becomeClosed s) :=
  (keepsRing_withMode s .closed).trans
    (keepsRing_foldl (fun u d => keepsRing_ite (keepsRing_deckChange d _ _ u) (.refl u)) allDecks _)

/-! ### Events of the yard -/

theorem keepsRing_deckLoopEvent (d : DeckId) (i : LoopId) (b : Bool) (s : State) :
    s.keepsRing (deckLoopEvent d i b s) := by
  have hchange : ∀ new c, s.keepsRing (deckChange d new c s) := fun new c => keepsRing_deckChange d new c s
  unfold deckLoopEvent
  dsimp only
  split
  · exact keepsRing_ite (hchange _ _) (.refl s)
  · exact keepsRing_ite (hchange _ _) (.refl s)

theorem keepsRing_captureLoopEvent (d : DeckId) (i : LoopId) (b : Bool) (s : State) :
    s.keepsRing (captureLoopEvent d i b s) := by
  unfold captureLoopEvent
  split
  · exact .refl s
  · exact keepsRing_ite (keepsRing_endCapture d _ s) (.refl s)

theorem keepsRing_loopEvent (n : LaneId) (i : LoopId) (b f : Bool) (s : State) : s.keepsRing (loopEvent n i b f s) :=
  ((keepsRing_deckLoopEvent n i b s).trans (keepsRing_captureLoopEvent n i b _)).trans (keepsRing_applyLane n _ _)

theorem keepsRing_sampleIfReady (d : DeckId) (s : State) : s.keepsRing (sampleIfReady d s) := by
  have hexamined : ∀ zl (u : State), u.keepsRing (examineSample d zl u) := by
    intro zl u
    unfold examineSample
    split
    · exact keepsRing_ite (keepsRing_endCapture d _ u) (.refl u)
    · exact .refl u
  exact keepsRing_ite ((hexamined _ _).after rfl rfl) (.refl s)

theorem keepsRing_takeReading (c : ChanId) (raw : Int) (s : State) : s.keepsRing (takeReading c raw s) := by
  unfold takeReading
  dsimp only
  refine State.keepsRing.after (u := s.setChan c ((s.chan c).accept (s.supervised (s.chan c)) raw)) ?_ rfl rfl
  split
  · exact .refl _
  · exact (keepsRing_ite (keepsRing_leaveFault _ _) (.refl _)).trans (keepsRing_sampleIfReady _ _)

theorem keepsRing_endPeriod (s : State) : s.keepsRing (endPeriod s) := by
  refine (keepsRing_foldl (fun u c => ?_) _ _).after rfl rfl
  unfold tellLost
  split
  · exact .refl u
  · exact keepsRing_enterFault _ u

theorem keepsRing_loopDebounced (n : LaneId) (i : LoopId) (s : State) : s.keepsRing (loopDebounced n i s) := by
  unfold loopDebounced
  dsimp only
  split
  · exact .refl s
  · exact (keepsRing_loopEvent n i _ _ _).after rfl rfl

theorem keepsRing_faultAsserted (n : LaneId) (i : LoopId) (s : State) : s.keepsRing (faultAsserted n i s) :=
  keepsRing_ite (keepsRing_of_same rfl rfl) ((keepsRing_loopEvent n i _ _ _).after rfl rfl)

theorem keepsRing_limitDebounced (n : LaneId) (i : LimitId) (s : State) : s.keepsRing (limitDebounced n i s) := by
  unfold limitDebounced
  dsimp only
  split
  · exact .refl s
  · exact keepsRing_applyLane n _ s

/-! ### Overstay and a completed write -/

/-- R121: the judgment changes OVERSTAY flags alone. -/
theorem keepsRing_judgeOverstay (s : State) : s.keepsRing (judgeOverstay s) := by
  refine keepsRing_of_journal rfl (sheds_map _ rfl rfl (fun _ x _ => ?_))
  split <;> exact ⟨rfl, rfl, id⟩

theorem keepsRing_calTakesEffect (c : ChanId) (r : CalRecord) (s : State) : s.keepsRing (calTakesEffect c r s) := by
  have hleft : ∀ (d : Option DeckId) (u : State), u.keepsRing (deckLeft d u) := by
    intro d u
    cases d with
    | none => exact .refl u
    | some d => exact ((keepsRing_becomeUnused d (emptyWindow d u)).trans (keepsRing_leaveFault d _)).after rfl rfl
  have hjoined : ∀ (d : Option DeckId) (u : State), u.keepsRing (deckJoined d u) := by
    intro d u
    cases d with
    | none => exact .refl u
    | some d => exact (keepsRing_leaveUnused d (emptyWindow d u)).after rfl rfl
  unfold calTakesEffect
  dsimp only
  refine State.keepsRing.after (u := s.setChan c ((s.chan c).calibrated r)) ?_ rfl rfl
  split
  · split
    · exact .refl _
    · exact keepsRing_of_same rfl rfl
  · exact (hleft _ _).trans (hjoined _ _)

theorem keepsRing_yardSetup (u : YardSetup) (s : State) : s.keepsRing (yardSetupTakesEffect u s) := by
  unfold yardSetupTakesEffect
  dsimp only
  split
  · split <;> exact keepsRing_of_same rfl rfl
  · refine State.keepsRing.trans ?_ (keepsRing_judgeOverstay _)
    split <;> exact keepsRing_of_same rfl rfl

/-- R132: a record that takes effect, by its area. -/
theorem keepsRing_takesEffect (w : StoreWrite) (s : State) : s.keepsRing (takesEffect w s) := by
  unfold takesEffect
  cases w with
  | tare i e => exact .refl s
  | cal c r => exact keepsRing_calTakesEffect c r s
  | deck d u => exact (keepsRing_leaveUnused d _).after rfl rfl
  | lane n u => exact keepsRing_of_same rfl rfl
  | yard u => exact keepsRing_yardSetup u s

theorem engineNext_journal (z : Option DeckId) (s : State) : (engineNext z s).journal = s.journal := by
  unfold engineNext
  split
  · rfl
  · dsimp only
    split <;> rfl

theorem keepsRing_completeWrite (s : State) : s.keepsRing (completeWrite s) := by
  unfold completeWrite
  split
  · exact .refl s
  · refine State.keepsRing.trans ?_ (keepsRing_of_same (engineNext_journal _ _) (engineNext_register _ _))
    exact (keepsRing_takesEffect _ _).after rfl rfl

/-! ### The close of an event -/

/-- R124: the close can end CLOSING, where no visit is left, and judges LOW. -/
theorem keepsRing_finish (m : YardMode) (s : State) : s.keepsRing (finish m s) := by
  obtain ⟨y, hregister⟩ := finish_register m s
  exact keepsRing_of_lowOnly (finish_journal m s) (hregister ▸ sheds_of_visits rfl rfl)

end Sys2Proof.Machine
end

section
/-! PROOF. Every step keeps the journal within the ring (R145, R148, R150, R155 to R157): the bodies of the requests, resets
and start-up, and every command. -/

namespace Sys2Proof.Machine

/-! ### Visits admitted and sent out -/

/-- R101 check 9, R157: the headroom that an ADMIT asks for is what its visit takes. -/
theorem keepsRing_appendVisit {l : LinkId} {f : AdmitFields} {s u : State} (hj : u.journal = s.journal)
    (hr : u.register = s.register) (hc : ∀ p ∈ admitChecks s f (admitVisit s l f), p.1 = true) :
    s.keepsRing (appendVisit f.lane (admitVisit s l f) u) := by
  have hplate : ∀ x ∈ s.register.visits, x.plate ≠ (admitVisit s l f).plate := by
    rw [admitVisit_plate]
    simpa using hc (!s.register.visits.any (fun x => x.plate == f.plate), .duplicate) (by simp [admitChecks])
  have hlength : s.register.visits.length < 96 := by
    simpa using hc (decide (s.register.visits.length < 96), .registerFull) (by simp [admitChecks])
  have hheadroom : s.journal.held + s.register.unreleased + 1 ≤ 512 := by
    simpa [State.headroom] using hc (s.headroom, .journalFull) (by simp [admitChecks])
  generalize hv : admitVisit s l f = v at hplate ⊢
  have hnumber : v.number = s.register.newNumber := hv ▸ admitVisit_number s l f
  have hsite : v.state ≠ .onSite := hv ▸ admitVisit_not_onSite s l f
  intro h
  have hsound := h.distinct.allUnbound.append hlength f.lane hnumber hplate hsite
  refine ⟨sequenced_of_records (congrArg Journal.records hj) (congrArg Journal.counter hj) h.sequenced, ?_, ?_⟩
  · unfold appendVisit
    dsimp only
    rw [hr]
    exact hsound.distinct
  · have hone : [v].countP (fun x => x.state != .released) ≤ 1 := List.countP_le_length
    show u.journal.held + (u.register.visits ++ [v]).countP (fun x => x.state != .released) ≤ 512
    rw [hj, hr, List.countP_append]
    unfold Register.unreleased at hheadroom
    omega

theorem admitBody_ring (l : LinkId) (f : AdmitFields) (s : State) : (admitBody l f s).closes s s.keepsRing := by
  unfold admitBody
  dsimp only
  refine closes_checked_of _ (fun hc => ?_)
  split
  · exact closes_refuse _
  · rename_i hcapture
    split
    · rename_i hneeds
      rw [captureCheck, if_pos hneeds] at hcapture
      obtain ⟨_, _, hspot⟩ := visitRefusal_eq_none.mp hcapture
      exact closes_taken
        (keepsRing_appendVisit (quiet_startCapture _ _ s).journal (startCapture_register hspot _) hc) _ _
    · exact closes_taken ((keepsRing_appendVisit rfl rfl hc).trans (keepsRing_applyLane _ _ _)) _ _

/-- R112: an ON_SITE visit waits for its exit weighing. -/
theorem keepsRing_departForCapture {n : LaneId} {v x : Visit} {s : State}
    (hspot : ∀ c, (s.unit n).cap = some c → c.owner.kind = .spot) (hx : s.register.find v.number = some x)
    (hp : v.plate = x.plate) (hs : x.state = .onSite) : s.keepsRing (departForCapture n v s) := by
  refine keepsRing_of_journal (quiet_startCapture n _ s).journal ?_
  rw [departForCapture_register hspot]
  refine fun h => sheds_update (f := fun _ => { v with state := .weighOut, capMark := true }) (fun y hy => ?_) h
  cases hx.symm.trans hy
  exact ⟨rfl, hp, fun e => by rw [hs] at e; cases e⟩

/-- R112, R114: an ON_SITE visit is released at once. -/
theorem keepsRing_departReleased (n : LaneId) {v x : Visit} {s : State} (hx : s.register.find v.number = some x)
    (hp : v.plate = x.plate) (hs : x.state ≠ .released) : s.keepsRing (departReleased n v s) := by
  have hbound : (releaseVisit v s).keepsRing
      { releaseVisit v s with register := (releaseVisit v s).register.bind n v.number } :=
    keepsRing_of_journal rfl (sheds_of_visits rfl rfl)
  exact (((keepsRing_releaseVisit hx hp hs).trans hbound).trans (keepsRing_applyLane n _ _)).trans (keepsRing_fillAll _)

theorem departBody_ring (f : DepartFields) (s : State) : (departBody f s).closes s s.keepsRing := by
  unfold departBody
  refine closes_checked _ ?_
  split
  · exact closes_refuse _
  · rename_i v hv
    refine closes_checked_of _ (fun hc => ?_)
    have hfound : s.register.find v.number = some v := (find_some hv).2.symm ▸ hv
    have hsite : v.state = .onSite := by
      simpa using hc (v.state == .onSite, .wrongState) (by simp [departVisitChecks])
    split
    · exact closes_refuse _
    · rename_i hcapture
      dsimp only
      split
      · rename_i hneeds
        rw [captureCheck, if_pos hneeds] at hcapture
        obtain ⟨_, _, hspot⟩ := visitRefusal_eq_none.mp hcapture
        exact closes_taken (keepsRing_departForCapture (v := v.departing _ _) hspot hfound rfl hsite) _ _
      · exact closes_taken
          (keepsRing_departReleased _ (v := v.departing _ _) hfound rfl (by rw [hsite]; decide)) _ _

/-! ### The other requests on visits -/

/-- A visit changed in a field that is neither its number nor its registration nor its state. -/
theorem sheds_touch (r : Register) (v : Nat) {f : Visit → Visit}
    (hf : ∀ x : Visit, (f x).number = x.number ∧ (f x).plate = x.plate ∧ (f x).state = x.state) :
    r.sheds (r.update v f) :=
  sheds_update fun x hx => ⟨(hf x).1.trans (find_some hx).2, (hf x).2.1, fun hs => (hf x).2.2.trans hs⟩

theorem recaptureBody_ring (n : LaneId) (s : State) : (recaptureBody n s).closes s s.keepsRing := by
  have hstarts : ∀ v, s.keepsRing (recaptureVisit n v s) := fun v =>
    (keepsRing_startCapture n (.visitIn v.number) s).trans
      (keepsRing_of_journal rfl (sheds_touch _ v.number (f := fun x => { x with capMark := true })
        (fun _ => ⟨rfl, rfl, rfl⟩)))
  unfold recaptureBody
  refine closes_checked _ ?_
  split
  · exact closes_refuse _
  · refine closes_checked _ ?_
    split
    · exact closes_refuse _
    · exact closes_taken (hstarts _) _ _

/-- A visit leaves the register. -/
theorem keepsRing_left {s t : State} {v : Nat} (hj : t.journal = s.journal) (hr : t.register = s.register.leave v) :
    s.keepsRing t := keepsRing_of_journal hj (hr ▸ sheds_leave _ v)

theorem keepsRing_cancelVisit (n : LaneId) (v : Nat) (s : State) : s.keepsRing (cancelVisit n v s) :=
  keepsRing_left (quiet_cancelVisit n v s).journal (cancelVisit_register n v s)

theorem cancelBody_ring (n : LaneId) (s : State) : (cancelBody n s).closes s s.keepsRing := by
  unfold cancelBody
  refine closes_checked _ ?_
  split
  · exact closes_refuse _
  · split
    · exact closes_taken (keepsRing_cancelVisit n _ s) _ _
    · exact closes_refuse _

theorem clearLaneBody_ring (n : LaneId) (s : State) : (clearLaneBody n s).closes s s.keepsRing := by
  unfold clearLaneBody
  refine closes_checked _ ?_
  split
  · exact closes_refuse _
  · split
    · exact closes_taken (keepsRing_left (quiet_clearVisit n _ s).journal (clearVisit_register n _ s)) _ _
    · exact closes_refuse _

theorem keepsRing_onLane (n : Option LaneId) {f : LaneId → State → State}
    (hf : ∀ n (u : State), u.keepsRing (f n u)) (s : State) : s.keepsRing (onLane n f s) := by
  cases n with
  | none => exact .refl s
  | some n => exact hf n s

/-- R118, R150: the VOID record is written and its visit leaves. -/
theorem keepsRing_voidRecorded {v : Visit} {s : State} (hv : s.register.find v.number = some v)
    (hs : v.state ≠ .released) : s.keepsRing (voidRecorded v s) := by
  have hremoved : s.keepsRing (voidRemoved v (s.voidWritten v)) := by
    refine keepsRing_of_write (x := v.voidTicket s.clock.time) (voidWritten_journal v s) (fun hd => ?_)
    unfold voidRemoved
    dsimp only
    rw [voidWritten_register]
    exact ⟨leave_distinct hd v.number, unreleased_leave hv hs⟩
  rw [voidRecorded_eq]
  exact (hremoved.trans (keepsRing_fillAll _)).trans
    (keepsRing_onLane _ (fun n u => keepsRing_endVisitCapture n v.number u) _)

theorem voidBody_ring (num : Nat) (s : State) : (voidBody num s).closes s s.keepsRing := by
  cases hv : s.register.find num with
  | none =>
    rw [voidBody_missing hv]
    exact .inl rfl
  | some v =>
    by_cases hs : v.state = .released
    · rw [voidBody_ticketed hv hs]
      exact .inl rfl
    · rw [voidBody_work hv hs]
      refine closes_taken (keepsRing_ite (keepsRing_cancelVisit _ _ s) (keepsRing_voidRecorded ?_ hs)) _ _
      exact (find_some hv).2.symm ▸ hv

theorem reclassifyBody_ring (f : Nat × Nat) (s : State) : s.keepsRing (reclassifyBody f s).state := by
  unfold reclassifyBody
  split
  · exact .refl s
  · split
    · exact .refl s
    · exact keepsRing_of_journal rfl (sheds_touch s.register f.1 (fun _ => ⟨rfl, rfl, rfl⟩))

/-! ### The other requests that close an event -/

theorem reraiseBody_ring (n : LaneId) (s : State) : (reraiseBody n s).closes s s.keepsRing := by
  unfold reraiseBody
  refine closes_checked _ ?_
  split
  · exact closes_refuse _
  · exact closes_checked _ (closes_taken (keepsRing_applyLane n _ s) _ _)

theorem lowerResetBody_ring (n : LaneId) (s : State) : (lowerResetBody n s).closes s s.keepsRing := by
  unfold lowerResetBody
  refine closes_checked _ ?_
  split
  · exact closes_refuse _
  · exact closes_taken (keepsRing_applyLane n _ s) _ _

theorem manualRaiseBody_ring (n : LaneId) (s : State) : (manualRaiseBody n s).closes s s.keepsRing :=
  closes_taken (keepsRing_applyLane n _ s) _ _

theorem spotWeighBody_ring (l : LinkId) (d : DeckId) (s : State) : (spotWeighBody l d s).closes s s.keepsRing :=
  closes_checked _ (closes_taken (keepsRing_startCapture d _ s) _ _)

theorem wakeBody_ring (d : DeckId) (s : State) : (wakeBody d s).closes s s.keepsRing := by
  have hidle : s.keepsRing (s.setDeck d (s.deck d).restartIdle) := keepsRing_of_same rfl rfl
  unfold wakeBody
  split
  · exact closes_taken (keepsRing_wakeForRequest d s) _ _
  · exact closes_taken (keepsRing_wakeForRequest d s) _ _
  · exact closes_taken hidle _ _
  · exact .inl rfl
  · exact closes_refuse _
  · exact closes_refuse _

theorem serviceEnterBody_ring (d : DeckId) (s : State) : (serviceEnterBody d s).closes s s.keepsRing := by
  have hin : s.keepsRing (s.inService d) :=
    keepsRing_ite ((keepsRing_deckChange d _ _ _).after rfl rfl) (keepsRing_of_same rfl rfl)
  unfold serviceEnterBody
  split
  · exact closes_refuse _
  · rw [enterService_eq]
    exact closes_taken (hin.trans (keepsRing_applyLane d _ _)) _ _

theorem serviceLeaveBody_ring (d : DeckId) (s : State) : (serviceLeaveBody d s).closes s s.keepsRing := by
  have hleave : s.keepsRing (leaveService d s) :=
    keepsRing_ite ((keepsRing_deckChange d _ _ _).after rfl rfl) (keepsRing_of_same rfl rfl)
  unfold serviceLeaveBody
  split
  · exact closes_taken hleave _ _
  · exact closes_refuse _

/-- R125: FORCE_CLOSED ends captures and withdraws causes, visit by visit. -/
theorem keepsRing_forceClosed (s : State) : s.keepsRing (forceClosed s) := by
  have hends : ∀ (v : Visit) (u : State),
      u.keepsRing (onLane v.laneOf (fun n w => endVisitCapture n v.number w) u) :=
    fun v u => keepsRing_onLane _ (fun n w => keepsRing_endVisitCapture n _ w) u
  have hwithdraws : ∀ (v : Visit) (u : State),
      u.keepsRing (onLane v.laneOf (fun n w => withdrawLane n v.number w) u) :=
    fun v u => keepsRing_onLane _ (fun n w => keepsRing_withdrawLane n _ w) u
  have hforced : ∀ (u : State) (v : Visit), u.keepsRing (forceVisit v u) := by
    intro u v
    unfold forceVisit
    cases v.state with
    | weighIn | weighOut => exact hends v u
    | entering | released => exact hwithdraws v u
    | onSite => exact .refl u
  exact (keepsRing_foldl hforced s.register.forceOrder s).trans (keepsRing_becomeClosed _)

theorem yardModeBody_ring (m : ModeAsked) (s : State) : (yardModeBody m s).closes s s.keepsRing := by
  unfold yardModeBody
  split
  · exact .inl rfl
  · exact closes_taken (keepsRing_withMode s _) _ _
  · exact closes_taken (keepsRing_forceClosed s) _ _
  · exact closes_taken (keepsRing_withMode s _) _ _
  · exact .inl rfl
  · exact closes_taken (keepsRing_forceClosed s) _ _
  · split
    · exact closes_taken (keepsRing_withMode s _) _ _
    · exact closes_refuse _
  · exact closes_refuse _
  · exact closes_refuse _

theorem setClockBody_ring (now : Nat) (s : State) : s.keepsRing (setClockBody now s).state :=
  (keepsRing_judgeOverstay { s with clock := ⟨now, true, 0⟩ }).after rfl rfl

/-! ### Requests on the journal -/

/-- R149: the journal is empty while the counter is unset, so any number that is set continues it. -/
theorem keepsRing_setCounter {s : State} {n : Nat} (hc : s.journal.counter = none) (h1 : 1 ≤ n) (h2 : n ≤ 4294967295) :
    s.keepsRing { s with journal := { s.journal with counter := some n } } := by
  intro ⟨⟨hlen, hrange, hempty⟩, hdistinct, hroom⟩
  rw [hc] at hempty
  refine ⟨⟨hlen, hrange, h1, h2, ?_⟩, hdistinct, hroom⟩
  show numbered s.journal.records n
  rw [hempty]
  trivial

theorem ticketBaseBody_ring {n : Nat} (h1 : 1 ≤ n) (h2 : n ≤ 4294967295) (s : State) :
    s.keepsRing (ticketBaseBody n s).state := by
  unfold ticketBaseBody
  split
  · exact .refl s
  · rename_i hc
    exact keepsRing_setCounter (Option.not_isSome_iff_eq_none.mp hc) h1 h2

theorem slotReturnBody_ring (l : LinkId) (i : SlotId) (s : State) : s.keepsRing (slotReturnBody l i s).state := by
  unfold slotReturnBody
  split
  · exact .refl s
  · split
    · exact keepsRing_returnSlot l i s
    · exact .refl s

theorem journalRoleBody_ring (l : LinkId) (r : JournalRole) (s : State) :
    s.keepsRing (journalRoleBody l r s).state := by
  unfold journalRoleBody
  split
  · exact .refl s
  · exact keepsRing_takeJournalRole l r s

/-! ### Bodies that leave the journal -/

theorem checked_journal {checks : List (Bool × Status)} {s : State} {go : Answer}
    (h : go.state.journal = s.journal) : (checked checks s go).state.journal = s.journal := by
  unfold checked
  split
  · rfl
  · exact h

theorem zeroCalBody_journal (calen : Bool) (d : DeckId) (s : State) :
    (zeroCalBody calen d s).state.journal = s.journal := by
  refine checked_journal ?_
  unfold startZeroCal
  dsimp only
  split <;> rfl

theorem tareWriteBody_journal (e : TareEntry) (s : State) : (tareWriteBody e s).state.journal = s.journal := by
  unfold tareWriteBody
  split
  · rfl
  · split <;> rfl

theorem tareEraseBody_journal (p : Plate) (s : State) : (tareEraseBody p s).state.journal = s.journal := by
  unfold tareEraseBody
  split
  · rfl
  · split <;> rfl

theorem tareReadBody_journal (f : TareReadForm) (s : State) : (tareReadBody f s).state.journal = s.journal := by
  unfold tareReadBody
  split
  · rfl
  · split <;> rfl

theorem setupWriteBody_journal (calen : Bool) (g : SetupGiven) (s : State) :
    (setupWriteBody calen g s).state.journal = s.journal := by
  unfold setupWriteBody
  split <;> rfl

theorem readVisitBody_journal (v : Nat) (s : State) : (readVisitBody v s).state.journal = s.journal := by
  unfold readVisitBody
  split <;> rfl

theorem readTicketBody_journal (n : Nat) (s : State) : (readTicketBody n s).state.journal = s.journal := by
  unfold readTicketBody
  split
  · rfl
  · split <;> rfl

theorem slotReadBody_journal (l : LinkId) (i : SlotId) (s : State) :
    (slotReadBody l i s).state.journal = s.journal := by
  unfold slotReadBody
  split <;> rfl

/-! ### Resets and start-up -/

theorem abandonWrite_journal (s : State) : (abandonWrite s).journal = s.journal := by
  rw [(abandonWrite_frame s).1]

theorem abandonMarked_journal (s : State) : (abandonMarked s).journal = s.journal := by
  unfold abandonMarked
  split
  · rfl
  · exact abandonWrite_journal s

theorem keepsRing_abandonMarked (s : State) : s.keepsRing (abandonMarked s) :=
  keepsRing_of_same (abandonMarked_journal s) (abandonMarked_register s)

/-- R162, R172: role, cursor and slot count, which the held count is judged by, live through the clearing. -/
theorem keepsRing_clearWorking (s : State) : s.keepsRing (clearWorking s) := by
  refine keepsRing_of_links rfl rfl rfl (fun _ l => ?_)
  have hplace : (clearWorking s).jlink l = (s.jlink l).cleared := get_map _ _ _
  rw [hplace, outstanding_cleared]

theorem keepsRing_beginStart (kind : ResetKind) (straps : Straps) (s : State) :
    s.keepsRing (beginStart kind straps s) := (keepsRing_clearWorking s).trans (keepsRing_of_same rfl rfl)

theorem keepsRing_halt (s : State) : s.keepsRing (halt s) :=
  (keepsRing_of_same (abandonWrite_journal s) (abandonWrite_register s)).trans (keepsRing_clearWorking _)

/-- R162: each link's cursor goes back over the records of its slots. -/
theorem keepsRing_journalUp (s : State) : s.keepsRing (journalUp s) := by
  refine keepsRing_of_links rfl rfl rfl (fun h l => ?_)
  rw [journalUp_jlink]
  exact outstanding_afterReset h.nodup _ _

theorem keepsRing_storeIsUp (s : State) : s.keepsRing s.storeIsUp := by
  obtain ⟨_, hdecks, _⟩ := decksUp_frame (cellsUp (registerUp s))
  obtain ⟨_, hlanes, _⟩ := lanesUp_frame (decksUp (cellsUp (registerUp s)))
  refine keepsRing_of_journal (storeIsUp_journal s) ?_
  rw [show s.storeIsUp.register = s.register.afterReset from hlanes.trans hdecks]
  exact sheds_afterReset _

theorem keepsRing_comeUps (s : State) : s.keepsRing (comeUps s) := by
  rw [comeUps_eq]
  exact (((keepsRing_storeIsUp s).trans (keepsRing_journalUp _)).trans (keepsRing_fillAll _)).trans
    ((keepsRing_judgeOverstay _).after rfl rfl)

/-- R162, R201: a backup domain found not valid leaves an empty journal and an empty register. -/
theorem keepsRing_clearBackup (s : State) : s.keepsRing (clearBackup s) := fun _ =>
  ⟨reset_sequenced, reset_distinct, reset_withinHeadroom⟩

theorem keepsRing_backupCheck (s : State) : s.keepsRing (backupCheck s) := by
  refine keepsRing_ite ?_ (.refl s)
  dsimp only
  split
  · exact keepsRing_of_same rfl rfl
  · exact (keepsRing_clearBackup s).trans (keepsRing_of_same rfl rfl)

/-! ### Kinds of commands -/

/-- A command that is an event of the yard. -/
theorem keepsRing_event {i : Instr} {now : State → Bool} {f : State → State} {s t : State}
    (he : exec i s = yardEvent now f s) (hf : s.keepsRing (f s)) (h : exec i s = .next t) : s.keepsRing t := by
  rw [he] at h
  obtain rfl | ⟨_, _, rfl⟩ := yardEvent_cases h
  · exact .refl _
  · exact hf.trans (keepsRing_finish _ _)

/-- A request does nothing beyond its link, or what its body does with the fields that its payload gives. -/
theorem keepsRing_request {α : Type} {l : LinkId} {code tag : Byte} {allowed : Role → Bool} {fields : Option α}
    {body : α → State → Answer} {s : State}
    (hbody : ∀ x, fields = some x → ∀ u : State, u.keepsRing (body x u).state) :
    s.keepsRing (request l code tag allowed fields body s) := by
  have hany : ∀ body' : α → State → Answer, (∀ x (u : State), u.keepsRing (body' x u).state) →
      s.keepsRing (request l code tag allowed fields body' s) := by
    intro body' h
    rcases request_cases l code tag allowed fields body' s with e | ⟨k, _, e⟩ | ⟨_, x, r, e⟩
    · rw [e]
      exact .refl s
    · rw [e]
      exact keepsRing_of_same rfl rfl
    · rw [e]
      have hbody : s.keepsRing (body' x (s.handling l code tag)).state := (h x _).after rfl rfl
      exact hbody.trans (keepsRing_of_same rfl rfl)
  cases fields with
  | none => exact hany (fun _ => refuse .badRequest) (fun _ u => .refl u)
  | some x => exact hany (fun _ => body x) (fun _ => hbody x rfl)

theorem keepsRing_closes {s : State} {a : Answer} (h : a.closes s s.keepsRing) : s.keepsRing a.state := by
  obtain e | ⟨u, hu, e⟩ := h
  · rw [e]
    exact .refl s
  · rw [e]
    exact hu.trans (keepsRing_finish _ _)

section
variable {α : Type} {i : Instr} {l : LinkId} {code tag : Byte} {allowed : Role → Bool} {fields : Option α}
  {body : α → State → Answer} {s u t : State}

/-- A command that is a request. -/
theorem keepsRing_command (he : exec i s = .next (Machine.request l code tag allowed fields body s))
    (hbody : ∀ x (u : State), u.keepsRing (body x u).state) (h : exec i s = .next t) : s.keepsRing t := by
  rw [he] at h
  cases h
  exact keepsRing_request (fun x _ => hbody x)

/-- A command that is a request whose body closes an event. -/
theorem keepsRing_closing (he : exec i s = .next (Machine.request l code tag allowed fields body s))
    (hbody : ∀ x (u : State), (body x u).closes u u.keepsRing) (h : exec i s = .next t) : s.keepsRing t :=
  keepsRing_command he (fun x u => keepsRing_closes (hbody x u)) h

/-- A command that is a request whose body leaves journal and register; the level of CALEN it may sample is no matter of
them. -/
theorem keepsRing_leaving (hu : u.journal = s.journal ∧ u.register = s.register)
    (he : exec i s = .next (Machine.request l code tag allowed fields body u))
    (hj : ∀ x (w : State), (body x w).state.journal = w.journal)
    (hr : ∀ x (w : State), (body x w).state.register = w.register) (h : exec i s = .next t) : s.keepsRing t := by
  rw [he] at h
  cases h
  exact (keepsRing_request (fun x _ w => keepsRing_of_same (hj x w) (hr x w))).after hu.1 hu.2

end

/-- A command that leaves journal and register. -/
theorem keepsRing_apart {i : Instr} {s u t : State} (he : exec i s = .next u) (hj : u.journal = s.journal)
    (hr : u.register = s.register) (h : exec i s = .next t) : s.keepsRing t := by
  rw [he] at h
  cases h
  exact keepsRing_of_same hj hr

theorem dropFrame_journal (l : LinkId) (s : State) : (dropFrame l s).journal = s.journal := by
  unfold dropFrame
  split <;> rfl

theorem keepsRing_frameSent (l : LinkId) (s : State) : s.keepsRing (frameSent l s) :=
  keepsRing_ite (keepsRing_of_same rfl rfl) (keepsRing_of_same rfl rfl)

/-- R149: a ticket base that is read is a number a record can bear. -/
theorem ticketBase_range {p : List Byte} {n : Nat} (h : ticketBase? p = some n) : 1 ≤ n ∧ n ≤ 4294967295 := by
  unfold ticketBase? within? at h
  cases hw : wordField? p with
  | none => simp [hw] at h
  | some m =>
    simp only [hw, Option.bind_some, Option.ite_none_right_eq_some, Option.some.injEq] at h
    obtain ⟨hm, rfl⟩ := h
    exact hm

theorem setTicketBase_ring {l : LinkId} {tag : Byte} {p : List Byte} {s t : State}
    (h : exec (.setTicketBase l tag p) s = .next t) : s.keepsRing t := by
  cases h
  refine keepsRing_request (fun n hn u => ?_)
  obtain ⟨h1, h2⟩ := ticketBase_range hn
  exact ticketBaseBody_ring h1 h2 u

/-! ### Every command -/

/-- R145, R148, R150, R155 to R157, command by command. -/
theorem exec_ring {i : Instr} {s t : State} (h : exec i s = .next t) : s.keepsRing t := by
  cases i with
  | cellReading c raw ok => exact keepsRing_event (exec_cellReading c raw ok s) (keepsRing_takeReading c _ s) h
  | periodTimerExpiry => exact keepsRing_event (exec_periodTimerExpiry s) (keepsRing_endPeriod s) h
  | warmUpTimerExpiry d => exact keepsRing_event (exec_warmUpTimerExpiry d s) (keepsRing_deckChange d _ _ s) h
  | idleTimerExpiry d => exact keepsRing_event (exec_idleTimerExpiry d s) (keepsRing_deckChange d _ _ s) h
  | stableTimeoutExpiry d => exact keepsRing_event (exec_stableTimeoutExpiry d s) (keepsRing_endCapture d _ s) h
  | loopLevelChange n i b =>
    cases h
    exact keepsRing_of_same rfl rfl
  | loopDebounceExpiry n i => exact keepsRing_event (exec_loopDebounceExpiry n i s) (keepsRing_loopDebounced n i s) h
  | detectorFaultAsserted n i =>
    by_cases hu : s.up = true
    · exact keepsRing_event (exec_detectorFaultAsserted_up hu n i) (keepsRing_faultAsserted n i s) h
    · exact keepsRing_apart (exec_detectorFaultAsserted_down hu n i) rfl rfl h
  | detectorFaultCleared n i =>
    by_cases hu : s.up = true
    · exact keepsRing_event (exec_detectorFaultCleared_up hu n i) (keepsRing_of_same rfl rfl) h
    · exact keepsRing_apart (exec_detectorFaultCleared_down hu n i) rfl rfl h
  | limitInputChange n i b =>
    cases h
    exact keepsRing_of_same rfl rfl
  | limitDebounceExpiry n i => exact keepsRing_event (exec_limitDebounceExpiry n i s) (keepsRing_limitDebounced n i s) h
  | travelTimerExpiry n => exact keepsRing_event (exec_travelTimerExpiry n s) (keepsRing_applyLane n _ s) h
  | settleTimerExpiry n => exact keepsRing_event (exec_settleTimerExpiry n s) (keepsRing_applyLane n _ s) h
  | resolutionTimerExpiry n => exact keepsRing_event (exec_resolutionTimerExpiry n s) (keepsRing_applyLane n _ s) h
  | clockSecond =>
    cases h
    exact keepsRing_ite
      (keepsRing_ite ((keepsRing_judgeOverstay (advanceClock s)).after rfl rfl) (keepsRing_of_same rfl rfl)) (.refl s)
  | storeWriteDone => exact keepsRing_event (exec_storeWriteDone s) (keepsRing_completeWrite s) h
  | admitVehicle l tag p => exact keepsRing_closing rfl (admitBody_ring l) h
  | depart l tag p => exact keepsRing_closing rfl departBody_ring h
  | recapture l tag p => exact keepsRing_closing rfl recaptureBody_ring h
  | cancel l tag p => exact keepsRing_closing rfl cancelBody_ring h
  | reraise l tag p => exact keepsRing_closing rfl reraiseBody_ring h
  | clearLane l tag p => exact keepsRing_closing rfl clearLaneBody_ring h
  | voidVisit l tag p => exact keepsRing_closing rfl voidBody_ring h
  | reclassify l tag p => exact keepsRing_command rfl reclassifyBody_ring h
  | manualRaise l tag p => exact keepsRing_closing rfl manualRaiseBody_ring h
  | lowerReset l tag p => exact keepsRing_closing rfl lowerResetBody_ring h
  | spotWeigh l tag p => exact keepsRing_closing rfl (spotWeighBody_ring l) h
  | wake l tag p => exact keepsRing_closing rfl wakeBody_ring h
  | zeroDeck l tag p =>
    exact keepsRing_leaving ⟨rfl, rfl⟩ rfl (fun _ _ => checked_journal rfl) zeroBody_register h
  | zeroCal l tag p calen =>
    exact keepsRing_leaving (s := s) (u := s.withCalen calen) ⟨rfl, rfl⟩ rfl (zeroCalBody_journal calen)
      (zeroCalBody_register calen) h
  | serviceEnter l tag p => exact keepsRing_closing rfl serviceEnterBody_ring h
  | serviceLeave l tag p => exact keepsRing_closing rfl serviceLeaveBody_ring h
  | tareWrite l tag p => exact keepsRing_leaving ⟨rfl, rfl⟩ rfl tareWriteBody_journal tareWriteBody_register h
  | tareErase l tag p => exact keepsRing_leaving ⟨rfl, rfl⟩ rfl tareEraseBody_journal tareEraseBody_register h
  | tareRead l tag p => exact keepsRing_leaving ⟨rfl, rfl⟩ rfl tareReadBody_journal tareReadBody_register h
  | setupWrite l tag p calen =>
    exact keepsRing_leaving (s := s) (u := s.withCalen calen) ⟨rfl, rfl⟩ rfl (setupWriteBody_journal calen)
      (setupWriteBody_register calen) h
  | setupRead l tag p calen =>
    exact keepsRing_leaving (s := s) (u := s.withCalen calen) ⟨rfl, rfl⟩ rfl (fun _ _ => rfl) (fun _ _ => rfl) h
  | setYardMode l tag p => exact keepsRing_closing rfl yardModeBody_ring h
  | setClock l tag p =>
    exact keepsRing_command rfl setClockBody_ring h
  | setTicketBase l tag p => exact setTicketBase_ring h
  | readClock | restart | identify | readDeck | readLane | listVisits | unknownKind =>
    exact keepsRing_leaving ⟨rfl, rfl⟩ rfl (fun _ _ => rfl) (fun _ _ => rfl) h
  | readVisit l tag p => exact keepsRing_leaving ⟨rfl, rfl⟩ rfl readVisitBody_journal readVisitBody_register h
  | readTicket l tag p => exact keepsRing_leaving ⟨rfl, rfl⟩ rfl readTicketBody_journal readTicketBody_register h
  | slotRead l tag p => exact keepsRing_leaving ⟨rfl, rfl⟩ rfl (slotReadBody_journal l) (slotReadBody_register l) h
  | slotReturn l tag p => exact keepsRing_command rfl (slotReturnBody_ring l) h
  | slotHalt l tag p => exact keepsRing_command rfl (fun _ u => keepsRing_setHalt l true u) h
  | slotResume l tag p =>
    exact keepsRing_command rfl (fun _ u => (keepsRing_setHalt l false u).trans (keepsRing_fillLink l _)) h
  | setSubscription l tag p => exact keepsRing_leaving ⟨rfl, rfl⟩ rfl (fun _ _ => rfl) (fun _ _ => rfl) h
  | setJournalRole l tag p => exact keepsRing_command rfl (journalRoleBody_ring l) h
  | badFrame l why => exact keepsRing_apart rfl (dropFrame_journal l s) (dropFrame_register l s) h
  | frameGapTimeout l => exact keepsRing_apart rfl (dropFrame_journal l s) (dropFrame_register l s) h
  | frameLeadByte l =>
    cases h
    exact keepsRing_ite (keepsRing_of_same rfl rfl) (.refl s)
  | frameSent l =>
    cases h
    exact keepsRing_ite (keepsRing_frameSent l s) (.refl s)
  | restartBegin straps =>
    cases h
    refine keepsRing_ite ?_ (.refl s)
    exact ((keepsRing_beginStart _ _ s).trans (keepsRing_abandonMarked _)).trans (keepsRing_comeUps _)
  | powerOn straps =>
    cases h
    have habandoned := State.keepsRing.after
      (keepsRing_of_same (abandonWrite_journal { s with power := { s.power with main := true, checkPending := true } })
        (abandonWrite_register _)) (s := s) rfl rfl
    exact keepsRing_ite (habandoned.trans (keepsRing_clearWorking _)) (habandoned.trans (keepsRing_beginStart _ _ _))
  | resetPinAssert =>
    cases h
    exact (keepsRing_halt _).after rfl rfl
  | resetPinRelease straps =>
    cases h
    exact keepsRing_ite ((keepsRing_beginStart _ _ _).after rfl rfl) (keepsRing_of_same rfl rfl)
  | storeScanDone =>
    cases h
    refine keepsRing_ite ?_ (.refl s)
    have hchecked : s.keepsRing (backupCheck (scanStore s)) := (keepsRing_backupCheck _).after rfl rfl
    exact hchecked.trans (keepsRing_comeUps _)
  | mainSupplyLoss =>
    cases h
    exact keepsRing_ite ((keepsRing_halt _).after rfl rfl) (.refl s)
  | backupSupplyFail =>
    cases h
    exact keepsRing_ite (.refl s) (keepsRing_of_same rfl rfl)

theorem step_ring {s t : State} (h : step s = .next t) : s.keepsRing t := by
  unfold step at h
  split at h
  · cases h
    exact .refl s
  · exact (exec_ring h).after rfl rfl

/-- Settles O57: every command keeps the journal within the ring, since a record is written only as a visit is released or
leaves, an ADMIT asks for the headroom its visit takes, and fills, returns, roles and resets add nothing to what is held. -/
theorem stepsKeepJournalWithinRing : Obligations.StepsKeepJournalWithinRing := by
  intro s t hsequenced hdistinct hheadroom h
  obtain ⟨hsequenced', _, hheadroom'⟩ := step_ring h ⟨hsequenced, hdistinct, hheadroom⟩
  exact ⟨hsequenced', hheadroom'⟩

end Sys2Proof.Machine
end

section
/-! PROOF. SET_TICKET_BASE and SET_JOURNAL_ROLE (R148, R149, R154 to R156, R158, R171, R189): what each refuses, and what a
request that is taken sets. -/

namespace Sys2Proof.Machine

/-! ### SET_TICKET_BASE -/

theorem exec_setTicketBase (l : LinkId) (tag : Byte) {n : Nat} (h : n < 4294967296) (s : State) :
    exec (.setTicketBase l tag (be4 n)) s =
      .next (request l 0x2B tag officeOnly (if n = 0 then none else some n) ticketBaseBody s) := by
  rw [← ticketBase_be4 n h]
  rfl

/-- R189: SET_TICKET_BASE is an OFFICE request. -/
theorem officeOnly_of_not_office {r : Role} (h : r ≠ .office) : officeOnly r = false := by
  cases r with
  | office => exact absurd rfl h
  | gate | kiosk | disabled => rfl

theorem ticketBaseBody_of_set {s : State} (h : s.journal.counter.isSome = true) (n : Nat) :
    ticketBaseBody n s = ⟨s, .wrongState, []⟩ := if_pos h

theorem ticketBaseBody_of_unset {s : State} (h : s.journal.counter = none) (n : Nat) :
    ticketBaseBody n s = ⟨{ s with journal := { s.journal with counter := some n } }, .ok, []⟩ :=
  if_neg (by simp [h])

/-- R148: no record is held while the counter is unset. -/
theorem records_of_unset {j : Journal} (h : j.sequenced) (hc : j.counter = none) : j.records = [] := by
  obtain ⟨_, _, hempty⟩ := h
  rw [hc] at hempty
  exact hempty

/-- R150: the first record of an empty journal. -/
theorem place_of_empty {j : Journal} (h : j.records = []) (num : Nat) (r : Ticket) :
    (j.place num r).records = [{ r with number := num }] := by
  rw [(place_spec j num r).1, h]
  rfl

/-- Settles O42: the decoding, the permission and the counter in turn. -/
theorem ticketBaseSetsUnsetCounter : Obligations.TicketBaseSetsUnsetCounter := by
  intro s l tag n hr hn
  refine ⟨_, exec_setTicketBase l tag hn s, fun h0 => ?_, fun h0 hrole => ?_, fun h0 hrole hset => ?_,
    fun h0 hrole hunset => ?_⟩
  · rw [if_pos h0]
    exact request_refuse hr _ _ _ _ _ .badRequest (request_badRequest hr _ _ _ _)
  · rw [if_neg h0]
    exact request_refuse hr _ _ _ _ _ .notPermitted
      (request_notPermitted hr _ _ _ _ _ (officeOnly_of_not_office hrole))
  · rw [if_neg h0]
    exact request_unmoved hr (officeOnly_of_office hrole) (ticketBaseBody_of_set (s := s.handling l 0x2B tag) hset n)
  · rw [if_neg h0]
    obtain ⟨hanswer, hreplied⟩ := request_answer hr 0x2B tag officeOnly n ticketBaseBody (officeOnly_of_office hrole) _
      (ticketBaseBody_of_unset (s := s.handling l 0x2B tag) hunset n) rfl
    refine ⟨hreplied, ?_, fun hsequenced => ?_⟩
    · rw [hanswer]
      change State.setLink (State.setLink { s with journal := { s.journal with counter := some n } } l _) l _ = _
      rw [setLink_setLink, setLink_link_self]
    · have hempty := records_of_unset hsequenced hunset
      rw [hanswer]
      exact ⟨hempty, place_of_empty (j := { s.journal with counter := some n }) hempty n⟩

/-! ### SET_JOURNAL_ROLE -/

theorem exec_setJournalRole (l : LinkId) (tag : Byte) (r : JournalRole) (s : State) :
    exec (.setJournalRole l tag (be1 r.code)) s =
      .next (request l 0x3D tag everyRole (some r) (journalRoleBody l) s) := by
  rw [← roleField_be1 r]
  rfl

section
variable (l : LinkId) (r : JournalRole) (s : State)

/-- R154, R171: the link's own place, and the others'. -/
theorem takeJournalRole_jlink (m : LinkId) :
    (takeJournalRole l r s).jlink m = if m = l then (s.jlink l).takeRole r else s.jlink m :=
  get_setAt _ _ _ _

/-- R154, R158: records and counter stay, and the LOW mark is judged on the margin that the role leaves. -/
theorem takeJournalRole_journal :
    (takeJournalRole l r s).journal.records = s.journal.records ∧
      (takeJournalRole l r s).journal.counter = s.journal.counter ∧
      ((takeJournalRole l r s).journal.low = true ↔
        512 - ((takeJournalRole l r s).journal.held : Int) - (s.register.unreleased : Int) ≤ 16) :=
  ⟨rfl, rfl, decide_eq_true_iff⟩

theorem yard_takeJournalRole : YardOnly s (takeJournalRole l r s) :=
  (yard_setJlink s l _).trans (yard_judgeLow _)

/-- R154: the cursor that the reply carries. -/
theorem takeJournalRole_cursorBytes :
    (takeJournalRole l r s).journal.cursorBytes ((takeJournalRole l r s).jlink l).cursor =
      if r = .none then be1 0 ++ be4 0 else be1 1 ++ be4 (s.journal.counter.getD 0) := by
  rw [takeJournalRole_jlink, if_pos rfl, takeRole_spec]
  cases r with
  | none | follow | hold => rfl

end

theorem journalRoleBody_refuses {l : LinkId} {r : JournalRole} {s : State} (h : (s.link l).role = .kiosk ∧ r = .hold) :
    journalRoleBody l r s = ⟨s, .notPermitted, []⟩ := if_pos h

theorem journalRoleBody_takes {l : LinkId} {r : JournalRole} {s : State}
    (h : ¬((s.link l).role = .kiosk ∧ r = .hold)) :
    journalRoleBody l r s = ⟨takeJournalRole l r s, .ok,
      if r = .none then be1 0 ++ be4 0 else be1 1 ++ be4 (s.journal.counter.getD 0)⟩ := by
  rw [← takeJournalRole_cursorBytes l r s]
  exact if_neg h

/-- Settles O47: HOLD asked by a KIOSK link is refused; every other role is taken. -/
theorem journalRoleTakesHead : Obligations.JournalRoleTakesHead := by
  intro s l tag r hr
  have hrole : ((s.handling l 0x3D tag).link l).role = (s.link l).role := by simp [State.handling, LinkState.take]
  refine ⟨_, exec_setJournalRole l tag r s, fun hk hh => ?_, fun htakes => ?_⟩
  · exact request_unchanged hr _ _ _ _ _ _ (journalRoleBody_refuses ⟨hrole.trans hk, hh⟩)
  · obtain ⟨hanswer, hreplied⟩ := request_answer hr 0x3D tag everyRole r (journalRoleBody l)
      (everyRole_of_enabled hr.2.1) _ (journalRoleBody_takes (s := s.handling l 0x3D tag) (hrole ▸ htakes))
      (yard_request (yard_takeJournalRole l r _) l)
    obtain ⟨hrecords, hcounter, hlow⟩ := takeJournalRole_journal l r (s.handling l 0x3D tag)
    have hplace : ∀ m, (request l 0x3D tag everyRole (some r) (journalRoleBody l) s).jlink m =
        if m = l then (s.jlink l).takeRole r else s.jlink m := fun m => by
      rw [hanswer]
      exact takeJournalRole_jlink l r (s.handling l 0x3D tag) m
    refine ⟨hreplied, (hplace l).trans (if_pos rfl), fun m hm => (hplace m).trans (if_neg hm), ?_⟩
    rw [hanswer]
    exact ⟨hrecords, hcounter, hlow⟩

end Sys2Proof.Machine
end

section
/-! PROOF. Every step keeps the notice queues bounded (R173, R177, R178): links change by offers, by the traffic of their
own line, or are emptied by a reset. -/

namespace Sys2Proof.Machine

/-! ### Bounded queues -/

/-- R173 on every link. -/
def State.queuesBounded (s : State) : Prop := ∀ l, (s.link l).bounded

/-- An operation after which the queues still are bounded. -/
def State.keepsBounds (s t : State) : Prop := s.queuesBounded → t.queuesBounded

theorem State.keepsBounds.refl (s : State) : s.keepsBounds s := id

theorem State.keepsBounds.trans {a b c : State} (h : a.keepsBounds b) (h' : b.keepsBounds c) : a.keepsBounds c := h' ∘ h

/-- Notices offered one by one, whatever else changes. -/
theorem keepsBounds_of_offers {s t : State} (h : OffersOnly s.links t.links) : s.keepsBounds t :=
  fun hs l => h.bounded l (hs l)

theorem keepsBounds_of_links {s t : State} (h : t.links = s.links) : s.keepsBounds t :=
  keepsBounds_of_offers (h ▸ .refl _)

/-- What has happened elsewhere before an operation is no matter of the links. -/
theorem State.keepsBounds.after {s u t : State} (h : u.keepsBounds t) (hl : u.links = s.links) : s.keepsBounds t :=
  (keepsBounds_of_links hl).trans h

theorem keepsBounds_ite {p : Prop} [Decidable p] {s t u : State} (ht : s.keepsBounds t) (hu : s.keepsBounds u) :
    s.keepsBounds (if p then t else u) := by
  split
  · exact ht
  · exact hu

/-- Links whose queues are those before. -/
theorem keepsBounds_of_queues {s t : State} (h : ∀ l, (t.link l).queue = (s.link l).queue) : s.keepsBounds t := by
  intro hs l
  unfold LinkState.bounded
  rw [h l]
  exact hs l

/-- A link with nothing queued. -/
theorem bounded_of_empty {k : LinkState} (h : k.queue = []) : k.bounded := by
  unfold LinkState.bounded
  rw [h]
  exact ⟨Nat.zero_le _, fun _ => Nat.zero_le _⟩

theorem keepsBounds_of_empty {s t : State} (h : ∀ l, (t.link l).queue = []) : s.keepsBounds t :=
  fun _ l => bounded_of_empty (h l)

theorem keepsBounds_setLink {s : State} {l : LinkId} {k : LinkState} (h : (s.link l).bounded → k.bounded) :
    s.keepsBounds (s.setLink l k) := by
  intro hs m
  by_cases hm : m = l
  · subst hm
    rw [setLink_link_self]
    exact h (hs m)
  · rw [setLink_link_ne _ _ hm]
    exact hs m

/-! ### The traffic of a link's own line -/

/-- R185: a BUSY reply waits with the others, and no notice is lost for it. -/
theorem bounded_turnAway {k : LinkState} (code tag : Byte) (h : k.bounded) : (k.turnAway code tag).bounded := by
  unfold LinkState.turnAway
  dsimp only
  split
  · exact h
  · exact bounded_kick _ h

theorem bounded_leadByte {k : LinkState} (h : k.bounded) : k.leadByte.bounded := by
  unfold LinkState.leadByte
  split
  · exact h
  · split <;> exact h

theorem keepsBounds_dropFrame (l : LinkId) (s : State) : s.keepsBounds (dropFrame l s) :=
  keepsBounds_ite (keepsBounds_setLink id) (.refl s)

/-- R180: the frame that follows one sent to its end takes a notice out of the queue at most. -/
theorem keepsBounds_frameSent (l : LinkId) (s : State) : s.keepsBounds (frameSent l s) := by
  have hended : s.keepsBounds (s.setLink l (s.link l).frameEnded) := keepsBounds_setLink id
  exact keepsBounds_ite (hended.trans (keepsBounds_of_links rfl)) (keepsBounds_setLink fun h => bounded_kick _ h)

/-! ### Requests -/

/-- A request does nothing, is turned away, is refused, or does what its body does; and it is answered. -/
theorem keepsBounds_request {α : Type} {l : LinkId} {code tag : Byte} {allowed : Role → Bool} {fields : Option α}
    {body : α → State → Answer} {s : State} (hbody : ∀ x (u : State), u.keepsBounds (body x u).state) :
    s.keepsBounds (request l code tag allowed fields body s) := by
  have hhandled : ∀ u : State, u.keepsBounds (handle l allowed fields body u).state := by
    intro u
    unfold handle
    split
    · exact .refl u
    · split
      · exact .refl u
      · split
        · exact hbody _ u
        · exact .refl u
  have htaken : s.keepsBounds (s.handling l code tag) := keepsBounds_setLink id
  exact keepsBounds_ite (.refl s) (keepsBounds_ite (keepsBounds_setLink (bounded_turnAway code tag))
    ((htaken.trans (hhandled _)).trans (keepsBounds_setLink (answer_bounded _ _))))

/-- A body that is refused, or does work that changes the links by offers and closes its event. -/
theorem keepsBounds_closes {s : State} {P : State → Prop} {a : Answer} (hP : ∀ u, P u → OffersOnly s.links u.links)
    (h : a.closes s P) : s.keepsBounds a.state := by
  obtain e | ⟨u, hu, e⟩ := h
  · rw [e]
    exact .refl s
  · rw [e]
    exact keepsBounds_of_offers ((hP u hu).trans (yard_finish _ u).links)

section
variable {α : Type} {i : Instr} {l : LinkId} {code tag : Byte} {allowed : Role → Bool} {fields : Option α}
  {body : α → State → Answer} {s t u : State}

/-- A command that is a request; the level of CALEN it may sample is no matter of the links. -/
theorem keepsBounds_command (hu : u.links = s.links)
    (he : exec i s = .next (Machine.request l code tag allowed fields body u))
    (hbody : ∀ x (w : State), w.keepsBounds (body x w).state) (h : exec i s = .next t) : s.keepsBounds t := by
  rw [he] at h
  cases h
  exact (keepsBounds_request hbody).after hu

theorem keepsBounds_quiet (he : exec i s = .next (Machine.request l code tag allowed fields body s))
    (hbody : ∀ x (w : State), (body x w).closes w (QuietWork w)) (h : exec i s = .next t) : s.keepsBounds t :=
  keepsBounds_command rfl he (fun x w => keepsBounds_closes (fun _ hq => hq.yard.links) (hbody x w)) h

theorem keepsBounds_work (he : exec i s = .next (Machine.request l code tag allowed fields body s))
    (hbody : ∀ x (w : State), (body x w).closes w (YardWork w)) (h : exec i s = .next t) : s.keepsBounds t :=
  keepsBounds_command rfl he (fun x w => keepsBounds_closes (fun _ hq => hq.yard.links) (hbody x w)) h

/-- A request whose body leaves the links. -/
theorem keepsBounds_leaving (hu : u.links = s.links)
    (he : exec i s = .next (Machine.request l code tag allowed fields body u))
    (hbody : ∀ x (w : State), (body x w).state.links = w.links) (h : exec i s = .next t) : s.keepsBounds t :=
  keepsBounds_command hu he (fun x w => keepsBounds_of_links (hbody x w)) h

end

/-! ### Bodies that leave the links -/

theorem checked_links {checks : List (Bool × Status)} {s : State} {go : Answer} (h : go.state.links = s.links) :
    (checked checks s go).state.links = s.links := by
  unfold checked
  split
  · rfl
  · exact h

theorem zeroCalBody_links (calen : Bool) (d : DeckId) (s : State) : (zeroCalBody calen d s).state.links = s.links := by
  refine checked_links ?_
  unfold startZeroCal
  dsimp only
  split <;> rfl

theorem tareWriteBody_links (e : TareEntry) (s : State) : (tareWriteBody e s).state.links = s.links := by
  unfold tareWriteBody
  split
  · rfl
  · split <;> rfl

theorem tareEraseBody_links (p : Plate) (s : State) : (tareEraseBody p s).state.links = s.links := by
  unfold tareEraseBody
  split
  · rfl
  · split <;> rfl

theorem tareReadBody_links (f : TareReadForm) (s : State) : (tareReadBody f s).state.links = s.links := by
  unfold tareReadBody
  split
  · rfl
  · split <;> rfl

theorem setupWriteBody_links (calen : Bool) (g : SetupGiven) (s : State) :
    (setupWriteBody calen g s).state.links = s.links := by
  unfold setupWriteBody
  split <;> rfl

theorem ticketBaseBody_links (n : Nat) (s : State) : (ticketBaseBody n s).state.links = s.links := by
  unfold ticketBaseBody
  split <;> rfl

theorem readVisitBody_links (v : Nat) (s : State) : (readVisitBody v s).state.links = s.links := by
  unfold readVisitBody
  split <;> rfl

theorem readTicketBody_links (n : Nat) (s : State) : (readTicketBody n s).state.links = s.links := by
  unfold readTicketBody
  split
  · rfl
  · split <;> rfl

theorem slotReadBody_links (l : LinkId) (i : SlotId) (s : State) : (slotReadBody l i s).state.links = s.links := by
  unfold slotReadBody
  split <;> rfl

/-! ### Bodies that offer notices -/

/-- R120: the station that reads VISIT notices is told the stream. -/
theorem reclassifyBody_bounds (f : Nat × Nat) (s : State) : s.keepsBounds (reclassifyBody f s).state := by
  unfold reclassifyBody
  split
  · exact .refl s
  · split
    · exact .refl s
    · exact keepsBounds_of_offers (offersOnly_offerAll _ _)

/-- R158, R166, R169: the slot given back, the fills told, the margin judged. -/
theorem yard_returnSlot (l : LinkId) (i : SlotId) (s : State) : YardOnly s (returnSlot l i s) :=
  ((yard_setJlink s l _).trans (yard_fillLink l _)).trans (yard_judgeLow _)

theorem slotReturnBody_bounds (l : LinkId) (i : SlotId) (s : State) : s.keepsBounds (slotReturnBody l i s).state := by
  unfold slotReturnBody
  split
  · exact .refl s
  · split
    · exact keepsBounds_of_offers (yard_returnSlot l i s).links
    · exact .refl s

/-- R166, R170: HALT cleared, the fills told. -/
theorem yard_resumeSlots (l : LinkId) (s : State) : YardOnly s (resumeSlots l s) :=
  (yard_setJlink s l _).trans (yard_fillLink l _)

/-- R175: a link with its mask replaced. -/
def State.subscribed (s : State) (l : LinkId) (m : BitVec 8) : State := s.setLink l { s.link l with mask := m }

theorem keepsBounds_subscribed (l : LinkId) (m : BitVec 8) (s : State) : s.keepsBounds (s.subscribed l m) :=
  keepsBounds_setLink (k := { s.link l with mask := m }) id

theorem journalRoleBody_bounds (l : LinkId) (r : JournalRole) (s : State) :
    s.keepsBounds (journalRoleBody l r s).state := by
  unfold journalRoleBody
  split
  · exact .refl s
  · exact keepsBounds_of_offers (yard_takeJournalRole l r s).links

/-! ### Resets and start-up -/

theorem keepsBounds_clearWorking (s : State) : s.keepsBounds (clearWorking s) :=
  keepsBounds_of_empty fun l => congrArg LinkState.queue (get_map s.links LinkState.cleared l)

theorem keepsBounds_beginStart (kind : ResetKind) (straps : Straps) (s : State) :
    s.keepsBounds (beginStart kind straps s) := by
  obtain ⟨_, _, _, _, _, hlink⟩ := beginStart_spec kind straps s
  exact keepsBounds_of_empty fun l => congrArg LinkState.queue (hlink l)

theorem keepsBounds_abandonWrite (s : State) : s.keepsBounds (abandonWrite s) :=
  keepsBounds_of_links (by rw [(abandonWrite_frame s).1])

theorem keepsBounds_abandonMarked (s : State) : s.keepsBounds (abandonMarked s) := by
  unfold abandonMarked
  split
  · exact keepsBounds_of_links rfl
  · exact (keepsBounds_abandonWrite s).trans (keepsBounds_of_links rfl)

theorem keepsBounds_comeUps (s : State) : s.keepsBounds (comeUps s) := by
  obtain ⟨_, _, _, _, _, _, _, _, _, _, _, _, hlinks⟩ := comeUps_spec s
  exact keepsBounds_of_offers hlinks

/-- R201: a domain that is cleared changes the masks of the links, not their queues. -/
theorem keepsBounds_backupCheck (s : State) : s.keepsBounds (backupCheck s) := by
  have hlink : ∀ l, (clearBackup s).link l = { s.link l with mask := defaultMask (s.link l).role } :=
    fun l => get_map s.links _ l
  have hcleared : s.keepsBounds (clearBackup s) := keepsBounds_of_queues fun l => by rw [hlink]
  have hdomain : s.keepsBounds (if s.power.backupValid then s else clearBackup s) :=
    keepsBounds_ite (.refl s) hcleared
  exact keepsBounds_ite (hdomain.trans (keepsBounds_of_links rfl)) (.refl s)

theorem keepsBounds_halt (s : State) : s.keepsBounds (halt s) :=
  (keepsBounds_abandonWrite s).trans (keepsBounds_clearWorking _)

/-! ### Every command -/

/-- R132: a completed write changes the links by offers. -/
theorem keepsBounds_storeWriteDone {s t : State} (h : exec .storeWriteDone s = .next t) : s.keepsBounds t := by
  rw [exec_storeWriteDone] at h
  obtain rfl | ⟨_, _, rfl⟩ := yardEvent_cases h
  · exact .refl _
  · exact keepsBounds_of_offers ((completeWrite_frame s).1.links.trans (yard_finish _ _).links)

/-- R173, R177, R178, command by command. -/
theorem exec_keepsBounds {i : Instr} {s t : State} (h : exec i s = .next t) : s.keepsBounds t := by
  cases i with
  | cellReading c raw ok => exact keepsBounds_of_offers (cellReading_shown h).yard.links
  | periodTimerExpiry | warmUpTimerExpiry | idleTimerExpiry | stableTimeoutExpiry | loopLevelChange
  | loopDebounceExpiry | detectorFaultAsserted | detectorFaultCleared | limitInputChange | limitDebounceExpiry
  | travelTimerExpiry | settleTimerExpiry | resolutionTimerExpiry =>
    exact keepsBounds_of_offers (isYardEvent_shown rfl h).1.yard.links
  | clockSecond =>
    cases h
    exact keepsBounds_ite
      (keepsBounds_ite (keepsBounds_of_offers (yard_judgeOverstay (advanceClock s)).links) (keepsBounds_of_links rfl))
      (.refl s)
  | storeWriteDone => exact keepsBounds_storeWriteDone h
  | admitVehicle l tag p => exact keepsBounds_quiet rfl (admitBody_closes l) h
  | depart l tag p => exact keepsBounds_work rfl departBody_closes h
  | recapture l tag p => exact keepsBounds_quiet rfl recaptureBody_closes h
  | cancel l tag p => exact keepsBounds_quiet rfl cancelBody_closes h
  | reraise l tag p => exact keepsBounds_quiet rfl reraiseBody_closes h
  | clearLane l tag p => exact keepsBounds_quiet rfl clearLaneBody_closes h
  | voidVisit l tag p => exact keepsBounds_work rfl voidBody_closes h
  | reclassify l tag p => exact keepsBounds_command rfl rfl reclassifyBody_bounds h
  | manualRaise l tag p =>
    exact keepsBounds_quiet rfl (fun n w => closes_taken (quiet_manualRaise n w) .ok []) h
  | lowerReset l tag p => exact keepsBounds_quiet rfl lowerResetBody_closes h
  | spotWeigh l tag p => exact keepsBounds_quiet rfl (spotWeighBody_closes l) h
  | wake l tag p => exact keepsBounds_quiet rfl wakeBody_closes h
  | zeroDeck l tag p => exact keepsBounds_leaving rfl rfl (fun _ _ => checked_links rfl) h
  | zeroCal l tag p calen =>
    exact keepsBounds_leaving (s := s) (u := s.withCalen calen) rfl rfl (zeroCalBody_links calen) h
  | serviceEnter l tag p => exact keepsBounds_quiet rfl serviceEnterBody_closes h
  | serviceLeave l tag p => exact keepsBounds_quiet rfl serviceLeaveBody_closes h
  | tareWrite l tag p => exact keepsBounds_leaving rfl rfl tareWriteBody_links h
  | tareErase l tag p => exact keepsBounds_leaving rfl rfl tareEraseBody_links h
  | tareRead l tag p => exact keepsBounds_leaving rfl rfl tareReadBody_links h
  | setupWrite l tag p calen =>
    exact keepsBounds_leaving (s := s) (u := s.withCalen calen) rfl rfl (setupWriteBody_links calen) h
  | setupRead l tag p calen =>
    exact keepsBounds_leaving (s := s) (u := s.withCalen calen) rfl rfl (fun _ _ => rfl) h
  | setYardMode l tag p => exact keepsBounds_quiet rfl yardModeBody_closes h
  | setClock l tag p =>
    exact keepsBounds_command rfl rfl
      (fun now w => keepsBounds_of_offers (yard_judgeOverstay { w with clock := ⟨now, true, 0⟩ }).links) h
  | setTicketBase l tag p => exact keepsBounds_leaving rfl rfl ticketBaseBody_links h
  | readClock | restart | identify | readDeck | readLane | listVisits | unknownKind =>
    exact keepsBounds_leaving rfl rfl (fun _ _ => rfl) h
  | readVisit l tag p => exact keepsBounds_leaving rfl rfl readVisitBody_links h
  | readTicket l tag p => exact keepsBounds_leaving rfl rfl readTicketBody_links h
  | slotRead l tag p => exact keepsBounds_leaving rfl rfl (slotReadBody_links l) h
  | slotReturn l tag p => exact keepsBounds_command rfl rfl (slotReturnBody_bounds l) h
  | slotHalt l tag p => exact keepsBounds_leaving rfl rfl (fun _ _ => rfl) h
  | slotResume l tag p =>
    exact keepsBounds_command rfl rfl (fun _ w => keepsBounds_of_offers (yard_resumeSlots l w).links) h
  | setSubscription l tag p => exact keepsBounds_command rfl rfl (keepsBounds_subscribed l) h
  | setJournalRole l tag p => exact keepsBounds_command rfl rfl (journalRoleBody_bounds l) h
  | badFrame l why | frameGapTimeout l =>
    cases h
    exact keepsBounds_dropFrame l s
  | frameLeadByte l =>
    cases h
    exact keepsBounds_ite (keepsBounds_setLink bounded_leadByte) (.refl s)
  | frameSent l =>
    cases h
    exact keepsBounds_ite (keepsBounds_frameSent l s) (.refl s)
  | restartBegin straps =>
    cases h
    refine keepsBounds_ite ?_ (.refl s)
    exact ((keepsBounds_beginStart _ _ s).trans (keepsBounds_abandonMarked _)).trans (keepsBounds_comeUps _)
  | powerOn straps =>
    cases h
    have hpowered : s.keepsBounds (abandonWrite { s with power := { s.power with main := true, checkPending := true } }) :=
      (keepsBounds_abandonWrite _).after rfl
    exact keepsBounds_ite (hpowered.trans (keepsBounds_clearWorking _)) (hpowered.trans (keepsBounds_beginStart _ _ _))
  | resetPinAssert =>
    cases h
    exact (keepsBounds_halt _).after rfl
  | resetPinRelease straps =>
    cases h
    have hreleased : s.keepsBounds { s with power := { s.power with resetPin := false } } := keepsBounds_of_links rfl
    exact keepsBounds_ite (hreleased.trans (keepsBounds_beginStart _ _ _)) hreleased
  | storeScanDone =>
    cases h
    have hscanned : s.keepsBounds (scanStore s) := keepsBounds_of_links rfl
    exact keepsBounds_ite ((hscanned.trans (keepsBounds_backupCheck _)).trans (keepsBounds_comeUps _)) (.refl s)
  | mainSupplyLoss =>
    cases h
    exact keepsBounds_ite ((keepsBounds_halt _).after rfl) (.refl s)
  | backupSupplyFail =>
    cases h
    exact keepsBounds_ite (.refl s) (keepsBounds_of_links rfl)

theorem step_keepsBounds {s t : State} (h : step s = .next t) : s.keepsBounds t := by
  unfold step at h
  split at h
  · cases h
    exact .refl s
  · exact (exec_keepsBounds h).after rfl

/-- Settles O55: an offer keeps a queue within its bounds, the start of a frame does too, and a reset empties the queues. -/
theorem stepsKeepQueuesBounded : Obligations.StepsKeepQueuesBounded := fun _ _ hs h => step_keepsBounds h hs

end Sys2Proof.Machine
end

section
/-! PROOF. What a queue does with an offered notice while its transmitter sends (R174, R177, R178), and the mask that
SET_SUBSCRIPTION gives a link (R174, R175). -/

namespace Sys2Proof.Machine

/-! ### An offer to a link that is sending -/

section
variable {k : LinkState} {n : Notice}

theorem offer_of_not_taken (h : k.takes n = false) : k.offer n = k := if_neg (by simp [h])

/-- R174: nothing is started, so the queue alone says what becomes of the notice. -/
theorem offer_of_sending (hsending : k.tx.isSome = true) (htaken : k.takes n = true) : k.offer n = k.enqueue n := by
  unfold LinkState.offer
  rw [if_pos htaken, kick_of_sending]
  rw [enqueue_tx]
  exact hsending

/-- R177: a word takes the place of the queued word of its lane. -/
theorem enqueue_of_queued_word {w w' : StatusWord} {a b : List Notice} (hq : k.queue = a ++ .laneStatus w' :: b)
    (hlane : w'.lane = w.lane) (ha : ∀ x ∈ a, x.isWordOf w.lane = false) :
    k.enqueue (.laneStatus w) = { k with queue := a ++ .laneStatus w :: b } := by
  have hmerged : mergeWord w k.queue = some (a ++ .laneStatus w :: b) := hq ▸ mergeWord_at w w' a b hlane ha
  simp [LinkState.enqueue, hmerged]

/-- R177: what has no word to replace joins the queue. -/
theorem enqueue_of_no_word (h : ∀ w, n = .laneStatus w → ∀ x ∈ k.queue, x.isWordOf w.lane = false) :
    k.enqueue n = k.join n := by
  obtain ⟨w, q, hn, hmerged, _⟩ | ⟨_, e⟩ := enqueue_eq k n
  · rw [(mergeWord_none w k.queue).mpr (h w hn)] at hmerged
    cases hmerged
  · exact e

theorem join_of_room (h : k.queue.length < 24) : k.join n = { k with queue := k.queue ++ [n] } := if_pos h

/-- R178: in a full queue the loss is marked, unless the newest notice tells one already. -/
theorem join_of_full (h : 24 ≤ k.queue.length) :
    k.join n = { k with overrun := if k.queue.getLast? = some .overrun then k.overrun else true } :=
  if_neg (Nat.not_lt.mpr h)

end

/-- Settles O50: not taken, merged, joined or lost. -/
theorem queueTakesMergesOrMarksLoss : Obligations.QueueTakesMergesOrMarksLoss := by
  intro k n hsending
  refine ⟨offer_of_not_taken, fun htaken => ?_⟩
  rw [offer_of_sending hsending htaken]
  refine ⟨?_, fun hword => ?_⟩
  · rintro w a b w' rfl hq hlane ha
    exact enqueue_of_queued_word hq hlane ha
  · rw [enqueue_of_no_word hword]
    refine ⟨join_of_room, fun hfull hlast => ?_, fun hfull hlast => ?_⟩
    · rw [join_of_full hfull, if_neg hlast]
    · rw [join_of_full hfull, if_pos hlast]

/-! ### SET_SUBSCRIPTION -/

theorem exec_setSubscription (l : LinkId) (tag : Byte) (m : BitVec 8) (s : State) :
    exec (.setSubscription l tag [m]) s =
      .next (request l 0x3C tag everyRole (if m.getLsbD 7 = true then none else some m)
        (fun m u => ⟨u.subscribed l m, .ok, [m]⟩) s) := rfl

section
variable {k : LinkState} (h : k.role ≠ .disabled)
include h

/-- R174: an enabled link takes a notice with a position by its bit. -/
theorem takes_iff_bit {n : Notice} {b : Nat} (hb : n.maskBit = some b) :
    k.takes n = true ↔ k.mask.getLsbD b = true := by
  simp [LinkState.takes, hb, h]

/-- R175: TICKET has no position, and an enabled link takes it whatever the mask. -/
theorem takes_ticket (i : SlotId) (r : Nat) : k.takes (.ticket i r) = true := by
  simp [LinkState.takes, Notice.maskBit, h]

end

/-- R200: the mask is in the backup domain. -/
theorem halt_mask (s : State) (l : LinkId) : ((halt s).link l).mask = (s.link l).mask := by
  obtain ⟨_, ⟨_, _, _, _, hlinks, _⟩, _⟩ := halt_spec s
  exact (hlinks l).2.2.2

/-- R175: a loss of supply and the reset input leave the masks. -/
theorem mask_of_stopped {s u : State} (h : exec .mainSupplyLoss s = .next u ∨ exec .resetPinAssert s = .next u)
    (l : LinkId) : (u.link l).mask = (s.link l).mask := by
  obtain h | h := h
  · cases h
    split
    · exact halt_mask _ l
    · rfl
  · cases h
    exact halt_mask _ l

/-- R185: the queue, the mask and the role that a reply leaves its link. -/
theorem answered_link (u : State) (l : LinkId) (r : Reply) :
    ((u.setLink l ((u.link l).answer r)).link l).queue = (u.link l).queue ∧
      ((u.setLink l ((u.link l).answer r)).link l).mask = (u.link l).mask ∧
      ((u.setLink l ((u.link l).answer r)).link l).role = (u.link l).role := by
  obtain ⟨_, hrole, hmask, _, _, hqueue, _⟩ := answer_spec (u.link l) r
  rw [setLink_link_self]
  exact ⟨hqueue, hmask, hrole⟩

/-- R186: a refusal leaves the queue and the mask of its link. -/
theorem request_refused_link {α : Type} {l : LinkId} {s : State} (h : s.ready l) {code tag : Byte}
    {allowed : Role → Bool} {fields : Option α} {body : α → State → Answer} {st : Status}
    (hr : handle l allowed fields body (s.handling l code tag) = refuse st (s.handling l code tag)) :
    ((request l code tag allowed fields body s).link l).queue = (s.link l).queue ∧
      ((request l code tag allowed fields body s).link l).mask = (s.link l).mask := by
  obtain ⟨hqueue, hmask, _⟩ := answered_link (s.handling l code tag) l ⟨tag, code, st, []⟩
  have hlink : ((s.handling l code tag).link l).queue = (s.link l).queue ∧
      ((s.handling l code tag).link l).mask = (s.link l).mask := by simp [State.handling, LinkState.take]
  rw [request_ready h, hr]
  exact ⟨hqueue.trans hlink.1, hmask.trans hlink.2⟩

/-- Settles O46: a mask with bit 7 set is refused at decoding, and any other replaces the mask. -/
theorem subscriptionReplacesMask : Obligations.SubscriptionReplacesMask := by
  intro s l tag m hr
  refine ⟨_, exec_setSubscription l tag m s, ?_⟩
  by_cases hbit : m.getLsbD 7 = true
  · rw [if_pos hbit]
    have hrefused := request_badRequest hr 0x3C tag everyRole (fun (m : BitVec 8) u => ⟨u.subscribed l m, .ok, [m]⟩)
    obtain ⟨hreplied, honly⟩ := request_refuse hr _ _ _ _ _ .badRequest hrefused
    obtain ⟨hqueue, hmask⟩ := request_refused_link hr hrefused
    exact ⟨honly, hqueue, fun u hu => mask_of_stopped hu l, fun _ => ⟨hreplied, hmask⟩,
      fun hclear => absurd (hclear.symm.trans hbit) Bool.false_ne_true⟩
  · rw [if_neg hbit]
    obtain ⟨hanswer, hreplied⟩ := request_answer hr 0x3C tag everyRole m
      (fun m u => ⟨u.subscribed l m, .ok, [m]⟩) (everyRole_of_enabled hr.2.1) _ rfl
      (by simp [State.subscribed])
    obtain ⟨hqueue, hmask, hrole⟩ := answered_link ((s.handling l 0x3C tag).subscribed l m) l ⟨tag, 0x3C, .ok, [m]⟩
    rw [← hanswer] at hqueue hmask hrole
    have hlink : ((s.handling l 0x3C tag).subscribed l m).link l = { (s.link l).take 0x3C tag with mask := m } := by
      simp [State.subscribed, State.handling]
    rw [hlink] at hqueue hmask hrole
    have henabled := hrole.symm ▸ hr.2.1
    refine ⟨?_, hqueue, fun u hu => mask_of_stopped hu l, fun hset => absurd hset hbit,
      fun _ => ⟨hreplied, hmask, fun n b hb => ?_, fun i r => ⟨takes_ticket henabled i r, rfl⟩, rfl⟩⟩
    · rw [hanswer]
      simp [State.onlyLink, State.subscribed, State.handling]
    · rw [takes_iff_bit henabled hb, hmask]

end Sys2Proof.Machine
end

section
/-! PROOF. SLOT_RETURN, SLOT_HALT and SLOT_RESUME (R153, R158, R166, R167, R169, R170): the fills of a pair with an open
next-fill slot, what each request refuses, and the place it leaves its link. -/

namespace Sys2Proof.Machine

/-! ### The fills of a pair -/

/-- R166: the pair once its next-fill slot has taken a record that `rest` follows. -/
def JournalLink.filledBy (k : JournalLink) (w : Ticket) (rest : List Ticket) : JournalLink :=
  { k.setSlot k.next (some w) with
    next := k.next.other, cursor := cursorPast rest, slotCount := k.slotCount + 1, gap := 0 }

section
variable {rs : List Ticket} {k : JournalLink} {w : Ticket} {rest : List Ticket}

theorem slot_filledBy_next (k : JournalLink) (w : Ticket) (rest : List Ticket) :
    (k.filledBy w rest).slot k.next = some w := slot_setSlot_self k k.next (some w)

theorem slot_filledBy_other (k : JournalLink) (w : Ticket) (rest : List Ticket) :
    (k.filledBy w rest).slot k.next.other = k.slot k.next.other := slot_setSlot_other k k.next (some w)

/-- R166, R167: a fill with its TICKET notice. -/
theorem fillOnce_of_open (ho : k.open? = true) (hw : waitingRecords rs k.cursor = w :: rest) :
    k.fillOnce rs = (k.filledBy w rest, [.ticket k.next w.number]) := by
  obtain ⟨_, _, hopen⟩ := fillOnce_spec rs k
  exact hopen w rest ho hw

/-- R166: with the other slot LINK-owned the pair takes one record. -/
theorem fill_of_one (ho : k.open? = true) (hw : waitingRecords rs k.cursor = w :: rest)
    (hother : (k.slot k.next.other).isSome = true) : k.fill rs = (k.filledBy w rest, [.ticket k.next w.number]) := by
  have hshut : (k.filledBy w rest).open? = false := by
    have hnext : (k.filledBy w rest).slot (k.filledBy w rest).next = k.slot k.next.other := slot_filledBy_other k w rest
    simp [JournalLink.open?, hnext, Option.isNone_eq_false_iff.mpr hother]
  obtain ⟨hstays, _⟩ := fillOnce_spec rs (k.filledBy w rest)
  unfold JournalLink.fill
  rw [fillOnce_of_open ho hw]
  dsimp only
  rw [hstays hshut]
  rfl

/-- A LINK-owned slot keeps its record under a fill. -/
theorem fillOnce_slot {i : SlotId} (h : k.slot i = some w) : (k.fillOnce rs).1.slot i = some w := by
  unfold JournalLink.fillOnce
  split
  · rename_i ho
    have hne : i ≠ k.next := by
      rintro rfl
      simp [JournalLink.open?, h] at ho
    have hother : i = k.next.other := by
      revert hne
      cases i <;> cases k.next <;> decide
    split
    · exact h
    · rw [hother] at h ⊢
      exact (slot_filledBy_other k _ _).trans h
  · exact h

/-- R166, R167: an open next-fill slot takes the record that waits, and its TICKET is told. -/
theorem fill_of_open (ho : k.open? = true) (hw : waitingRecords rs k.cursor = w :: rest) :
    (k.fill rs).1.slot k.next = some w ∧ Notice.ticket k.next w.number ∈ (k.fill rs).2 := by
  unfold JournalLink.fill
  rw [fillOnce_of_open ho hw]
  exact ⟨fillOnce_slot (slot_filledBy_next k w rest), List.mem_append_left _ List.mem_cons_self⟩

/-- R166: HALT, a cursor at the head and the role NONE each end the fills. -/
theorem fill_of_stopped (h : k.halt = true ∨ k.cursor = .head ∨ k.role = .none) : k.fill rs = (k, []) := by
  refine fill_none rs k ?_
  obtain h | h | h := h
  · exact .inl (by simp [JournalLink.open?, h])
  · exact .inr (by rw [h]; rfl)
  · exact .inl (by simp [JournalLink.open?, h])

end

/-! ### The fills of a link -/

section
variable (l : LinkId) (s : State)

theorem setJlink_jlink (k : JournalLink) (m : LinkId) : (s.setJlink l k).jlink m = if m = l then k else s.jlink m :=
  get_setAt _ _ _ _

/-- R166: the link's own place, and the others'. -/
theorem fillLink_jlink (m : LinkId) :
    (fillLink l s).jlink m = if m = l then ((s.jlink l).fill s.journal.records).1 else s.jlink m := get_setAt _ _ _ _

/-- R167: the link is told each of its fills. -/
theorem fillLink_told {x : Notice} (hx : ∀ w, x ≠ .laneStatus w) (h : x ∈ ((s.jlink l).fill s.journal.records).2) :
    (s.link l).told ((fillLink l s).link l) x := told_offerEach hx (List.mem_map.mpr ⟨x, h, rfl⟩) s.links

end

/-! ### SLOT_RETURN -/

theorem exec_slotReturn (l : LinkId) (tag : Byte) (i : SlotId) (s : State) :
    exec (.slotReturn l tag (be1 i.code)) s =
      .next (request l 0x39 tag everyRole (some i) (slotReturnBody l) s) := by
  rw [← slotField_be1 i]
  rfl

section
variable (l : LinkId) (i : SlotId) (s : State)

/-- R166, R169: the link's own place, and the others'. -/
theorem returnSlot_jlink (m : LinkId) :
    (returnSlot l i s).jlink m =
      if m = l then (((s.jlink l).giveBack i).fill s.journal.records).1 else s.jlink m := by
  show (fillLink l (s.setJlink l ((s.jlink l).giveBack i))).jlink m = _
  rw [fillLink_jlink, setJlink_jlink_self, setJlink_jlink]
  split <;> rfl

/-- R167: the link is told what fills the slot given back. -/
theorem returnSlot_told {x : Notice} (hx : ∀ w, x ≠ .laneStatus w)
    (h : x ∈ (((s.jlink l).giveBack i).fill s.journal.records).2) :
    (s.link l).told ((returnSlot l i s).link l) x := by
  have hfilled := fillLink_told l (s.setJlink l ((s.jlink l).giveBack i)) hx (by rw [setJlink_jlink_self]; exact h)
  exact (yard_judgeLow _).links.told _ l x hx hfilled

end

section
variable {l : LinkId} {i : SlotId} {s : State}

theorem slotReturnBody_of_part (h : (s.jlink l).slot i = none) : slotReturnBody l i s = ⟨s, .notOwned, []⟩ := by
  simp [slotReturnBody, h, refuse]

theorem slotReturnBody_of_newer (h : ((s.jlink l).slot i).isSome = true) (ho : (s.jlink l).inOrder i = false) :
    slotReturnBody l i s = ⟨s, .outOfOrder, []⟩ := by
  obtain ⟨r, hr⟩ := Option.isSome_iff_exists.mp h
  simp [slotReturnBody, hr, ho, refuse]

theorem slotReturnBody_of_oldest {r : Ticket} (h : (s.jlink l).slot i = some r) (ho : (s.jlink l).inOrder i = true) :
    slotReturnBody l i s = ⟨returnSlot l i s, .ok, be4 r.number ++ slotStatus (returnSlot l i s) l⟩ := by
  simp [slotReturnBody, h, ho]

end

/-- R169: of two LINK-owned slots only the next-fill slot is in order. -/
theorem inOrder_iff (k : JournalLink) (i : SlotId) :
    k.inOrder i = true ↔ k.slot i.other = none ∨ k.next = i := by
  simp [JournalLink.inOrder]

/-- R169: what a slot given back leaves of the pair. -/
theorem giveBack_frame (k : JournalLink) (i : SlotId) :
    (k.giveBack i).role = k.role ∧ (k.giveBack i).cursor = k.cursor ∧ (k.giveBack i).next = k.next ∧
      (k.giveBack i).halt = k.halt ∧ (k.giveBack i).slot i = none ∧ (k.giveBack i).slot i.other = k.slot i.other := by
  obtain ⟨hrole, hcursor, _, _, hnext, hhalt⟩ := setSlot_frame k i none
  exact ⟨hrole, hcursor, hnext, hhalt, slot_setSlot_self k i none, slot_setSlot_other k i none⟩

/-- R166, R169: a slot given back while the other is LINK-owned and a record waits is filled with it. -/
theorem giveBack_fill {rs : List Ticket} {k : JournalLink} {n : Nat} {w : Ticket} {rest : List Ticket}
    (hhalt : k.halt = false) (hrole : k.role ≠ .none) (hother : (k.slot k.next.other).isSome = true)
    (hcursor : k.cursor = .record n) (hw : recordsFrom rs n = w :: rest) :
    (k.giveBack k.next).fill rs = ((k.giveBack k.next).filledBy w rest, [.ticket k.next w.number]) := by
  obtain ⟨hrole', hcursor', hnext', hhalt', hslot', hother'⟩ := giveBack_frame k k.next
  have hopen : (k.giveBack k.next).open? = true := by
    simp [JournalLink.open?, hrole', hhalt', hnext', hslot', hrole, hhalt]
  have hwaits : waitingRecords rs (k.giveBack k.next).cursor = w :: rest := by
    rw [hcursor', hcursor]
    exact hw
  rw [fill_of_one hopen hwaits (by rw [hnext', hother']; exact hother), hnext']

/-- R153, R166, R169: the pair whose slot has been given back and filled again. -/
theorem giveBack_filledBy (k : JournalLink) (w : Ticket) (rest : List Ticket) :
    ((k.giveBack k.next).filledBy w rest).slot k.next = some w ∧
      ((k.giveBack k.next).filledBy w rest).next = k.next.other ∧ ((k.giveBack k.next).filledBy w rest).gap = 0 ∧
      ((k.giveBack k.next).filledBy w rest).slotCount = k.slotCount - 1 + 1 ∧
      ((k.giveBack k.next).filledBy w rest).cursor = cursorPast rest := by
  obtain ⟨_, _, hnext, _⟩ := giveBack_frame k k.next
  have hslot := slot_filledBy_next (k.giveBack k.next) w rest
  rw [hnext] at hslot
  exact ⟨hslot, congrArg SlotId.other hnext, rfl, rfl, rfl⟩

/-- Settles O44: a PART-owned slot, the newer of two records, and the slot given back with the fill that follows. -/
theorem slotReturnGivesBack : Obligations.SlotReturnGivesBack := by
  intro s l tag i hr k
  refine ⟨_, exec_slotReturn l tag i s, fun hpart => ?_, fun howned hother hnext => ?_, fun r howned horder => ?_⟩
  · exact request_unchanged hr _ _ _ _ _ _ (slotReturnBody_of_part hpart)
  · have hnewer : k.inOrder i = false := by
      rw [← Bool.not_eq_true, inOrder_iff]
      simp [Option.isSome_iff_ne_none.mp hother, hnext]
    exact request_unchanged hr _ _ _ _ _ _ (slotReturnBody_of_newer howned hnewer)
  · obtain ⟨hanswer, hreplied⟩ := request_answer hr 0x39 tag everyRole i (slotReturnBody l)
      (everyRole_of_enabled hr.2.1) _
      (slotReturnBody_of_oldest (s := s.handling l 0x39 tag) howned ((inOrder_iff k i).mpr horder))
      (yard_request (yard_returnSlot l i _) l)
    have hplace : ∀ m, (request l 0x39 tag everyRole (some i) (slotReturnBody l) s).jlink m =
        if m = l then ((k.giveBack i).fill s.journal.records).1 else s.jlink m := fun m => by
      rw [hanswer]
      exact returnSlot_jlink l i (s.handling l 0x39 tag) m
    refine ⟨?_, ?_, ?_, fun m hm => (hplace m).trans (if_neg hm), fun hstopped => ?_,
      fun n w rest hhalt hrole hnext hother hcursor hw => ?_⟩
    · rw [hanswer] at hreplied ⊢
      exact hreplied
    · rw [hanswer]
      rfl
    · rw [hanswer]
      rfl
    · obtain ⟨hrole', hcursor', _, hhalt', _⟩ := giveBack_frame k i
      rw [hplace, if_pos rfl, fill_of_stopped]
      · rfl
      · rw [hrole', hcursor', hhalt']
        exact hstopped
    · subst hnext
      have hfill := giveBack_fill hhalt hrole hother hcursor hw
      obtain ⟨hslot, hnext, hgap, hcount, hpast⟩ := giveBack_filledBy k w rest
      have htold : ((s.handling l 0x39 tag).link l).told ((returnSlot l k.next (s.handling l 0x39 tag)).link l)
          (.ticket k.next w.number) := by
        refine returnSlot_told _ _ _ (fun _ => Notice.noConfusion) ?_
        show _ ∈ ((k.giveBack k.next).fill s.journal.records).2
        rw [hfill]
        exact List.mem_cons_self
      rw [hplace, if_pos rfl, hfill]
      refine ⟨hslot, hnext, hgap, hcount, hpast.trans ?_, ?_⟩
      · cases rest <;> rfl
      · rw [hanswer]
        exact told_answered htold _

/-! ### SLOT_HALT and SLOT_RESUME -/

theorem exec_slotHalt (l : LinkId) (tag : Byte) (s : State) :
    exec (.slotHalt l tag []) s =
      .next (request l 0x3A tag everyRole (some ())
        (fun _ u => ⟨u.setHalt l true, .ok, slotStatus (u.setHalt l true) l⟩) s) := rfl

theorem exec_slotResume (l : LinkId) (tag : Byte) (s : State) :
    exec (.slotResume l tag []) s =
      .next (request l 0x3B tag everyRole (some ())
        (fun _ u => ⟨resumeSlots l u, .ok, slotStatus (resumeSlots l u) l⟩) s) := rfl

/-- R166, R170: the link's own place, and the others'. -/
theorem resumeSlots_jlink (l : LinkId) (s : State) (m : LinkId) :
    (resumeSlots l s).jlink m =
      if m = l then (({ s.jlink l with halt := false } : JournalLink).fill s.journal.records).1 else s.jlink m := by
  show (fillLink l (s.setJlink l { s.jlink l with halt := false })).jlink m = _
  rw [fillLink_jlink, setJlink_jlink_self, setJlink_jlink]
  split <;> rfl

/-- R167, R170: the link is told what fills a slot. -/
theorem resumeSlots_told {l : LinkId} {s : State} {x : Notice} (hx : ∀ w, x ≠ .laneStatus w)
    (h : x ∈ (({ s.jlink l with halt := false } : JournalLink).fill s.journal.records).2) :
    (s.link l).told ((resumeSlots l s).link l) x :=
  fillLink_told l (s.setHalt l false) hx (by rw [State.setHalt, setJlink_jlink_self]; exact h)

theorem slot_resumed (k : JournalLink) (i : SlotId) : ({ k with halt := false } : JournalLink).slot i = k.slot i := by
  cases i <;> rfl

/-- R166, R170: a resumed pair fills nothing while its role is NONE, nothing waits, or the next-fill slot is LINK-owned. -/
theorem resumed_fill_of_shut {rs : List Ticket} {k : JournalLink}
    (h : k.role = .none ∨ k.cursor = .head ∨ (k.slot k.next).isSome = true) :
    ({ k with halt := false } : JournalLink).fill rs = ({ k with halt := false }, []) := by
  obtain h | h | h := h
  · exact fill_of_stopped (.inr (.inr h))
  · exact fill_of_stopped (.inr (.inl h))
  · refine fill_none _ _ (.inl ?_)
    simp [JournalLink.open?, slot_resumed, Option.isNone_eq_false_iff.mpr h]

/-- R166, R170: a resumed pair whose next-fill slot is PART-owned is open. -/
theorem open_resumed {k : JournalLink} (hrole : k.role ≠ .none) (hslot : k.slot k.next = none) :
    ({ k with halt := false } : JournalLink).open? = true := by
  simp [JournalLink.open?, slot_resumed, hrole, hslot]

/-- Settles O45: the flag set; the flag cleared, and the fills by the next-fill slot. -/
theorem haltAndResumeSetFlag : Obligations.HaltAndResumeSetFlag := by
  intro s l tag hr
  have hall := everyRole_of_enabled hr.2.1
  refine ⟨⟨_, exec_slotHalt l tag s, ?_⟩, _, exec_slotResume l tag s, ?_⟩
  · obtain ⟨hanswer, hreplied⟩ := request_answer hr 0x3A tag everyRole ()
      (fun _ u => ⟨u.setHalt l true, .ok, slotStatus (u.setHalt l true) l⟩) hall _ rfl rfl
    rw [hanswer] at hreplied ⊢
    refine ⟨hreplied, ?_⟩
    rw [setLink_link_self]
    show State.setLink (State.setLink (s.setJlink l { s.jlink l with halt := true }) l _) l _ = _
    rw [setLink_setLink]
  · obtain ⟨hanswer, hreplied⟩ := request_answer hr 0x3B tag everyRole ()
      (fun _ u => ⟨resumeSlots l u, .ok, slotStatus (resumeSlots l u) l⟩) hall _ rfl
      (yard_request (yard_resumeSlots l _) l)
    rw [hanswer] at hreplied ⊢
    generalize hu : resumeSlots l (s.handling l 0x3B tag) = u at hreplied ⊢
    have hplace : ∀ m, u.jlink m = if m = l then
        (({ s.jlink l with halt := false } : JournalLink).fill s.journal.records).1 else s.jlink m := fun m => by
      rw [← hu]
      exact resumeSlots_jlink l (s.handling l 0x3B tag) m
    have hself := (hplace l).trans (if_pos rfl)
    obtain ⟨_, hhalt⟩ := fill_frame s.journal.records ({ s.jlink l with halt := false } : JournalLink)
    refine ⟨hreplied, ?_, ?_, fun m hm => (hplace m).trans (if_neg hm), fun hshut => ?_,
      fun n w rest hrole hslot hcursor hw => ?_⟩
    · exact (congrArg JournalLink.halt hself).trans hhalt
    · rw [← hu]
      rfl
    · exact hself.trans (congrArg Prod.fst (resumed_fill_of_shut hshut))
    · obtain ⟨hfilled, hnotice⟩ := fill_of_open (rs := s.journal.records) (open_resumed hrole hslot)
        (w := w) (rest := rest) (by rw [hcursor]; exact hw)
      refine ⟨(congrArg (JournalLink.slot · (s.jlink l).next) hself).trans hfilled, ?_⟩
      have htold := resumeSlots_told (s := s.handling l 0x3B tag) (fun _ => Notice.noConfusion) hnotice
      rw [hu] at htold
      exact told_answered htold _

end Sys2Proof.Machine
end

section
/-! PROOF. The line of a link (R179, R180, R184, R185, R203): what its events do to the frame in reception, which frame
follows one sent to its end, and the RESTART that waits for its reply to be sent. -/

namespace Sys2Proof.Machine

section
variable {s : State} {l : LinkId} (ht : s.taking = true) (hr : (s.link l).role ≠ .disabled)
include ht hr

theorem hears_of_enabled : s.hears l = true := by simp [State.hears, ht, hr]

/-! ### The receiver -/

/-- R184: the frame in reception is discarded, and the receiver hunts. -/
theorem dropFrame_of_enabled : dropFrame l s = s.setLink l { s.link l with rx := none } :=
  if_pos (hears_of_enabled ht hr)

theorem exec_badFrame (why : FrameFault) :
    exec (.badFrame l why) s = .next (s.setLink l { s.link l with rx := none }) :=
  congrArg Host.Outcome.next (dropFrame_of_enabled ht hr)

theorem exec_frameGapTimeout : exec (.frameGapTimeout l) s = .next (s.setLink l { s.link l with rx := none }) :=
  congrArg Host.Outcome.next (dropFrame_of_enabled ht hr)

theorem exec_frameLeadByte : exec (.frameLeadByte l) s = .next (s.setLink l (s.link l).leadByte) :=
  congrArg Host.Outcome.next (if_pos (hears_of_enabled ht hr))

/-- R180: the end of the frame being sent. -/
theorem exec_frameSent {x : TxFrame} (hx : (s.link l).tx = some x) : exec (.frameSent l) s = .next (frameSent l s) :=
  congrArg Host.Outcome.next (if_pos (by simp [hears_of_enabled ht hr, hx]))

end

theorem leadByte_of_hunting {k : LinkState} (h : k.rx = none) : k.leadByte = { k with rx := some [0xC3] } := by
  simp [LinkState.leadByte, h]

theorem leadByte_of_receiving {k : LinkState} {bs : List Byte} (h : k.rx = some bs) (hroom : bs.length < 204) :
    k.leadByte = { k with rx := some (bs ++ [0xC3]) } := by
  simp [LinkState.leadByte, h, hroom]

/-! ### The start of a frame on an idle transmitter (R179, R180) -/

section
variable {k : LinkState} (hidle : k.tx = none) (hanswered : k.awaiting = false)
include hidle hanswered

theorem kick_starts_reply {r : Reply} {rest : List Reply} (h : k.replies = r :: rest) :
    k.kick = { k with tx := some (.reply r), replies := rest } := by
  simp [LinkState.kick, hidle, hanswered, h]

theorem kick_starts_notice {n : Notice} {rest : List Notice} (hreplies : k.replies = []) (h : k.queue = n :: rest) :
    k.kick = { k with
      tx := some (.notice n), queue := if k.overrun then rest ++ [.overrun] else rest, overrun := false } := by
  simp [LinkState.kick, hidle, hanswered, hreplies, h]

theorem kick_starts_nothing (hreplies : k.replies = []) (h : k.queue = []) : k.kick = k := by
  simp [LinkState.kick, hidle, hanswered, hreplies, h]

end

/-! ### The end of a frame -/

section
variable {k : LinkState} {x : TxFrame} (hx : k.tx = some x)
include hx

theorem restarting_iff : k.restarting = true ↔ ∃ r, x = .reply r ∧ r.code = 0x2C ∧ r.status = .accepted := by
  cases x with
  | reply r => simp [LinkState.restarting, hx, Reply.isRestart]
  | notice n => simp [LinkState.restarting, hx]

theorem endsRequest_iff : k.endsRequest = true ↔ ∃ r, x = .reply r ∧ r.status ≠ .busy := by
  cases x with
  | reply r => simp [LinkState.endsRequest, hx]
  | notice n => simp [LinkState.endsRequest, hx]

/-- R185: the end of a reply other than BUSY ends the request. -/
theorem frameEnded_request_of_reply {r : Reply} (hr : x = .reply r) (hbusy : r.status ≠ .busy) :
    k.frameEnded.request = none :=
  if_pos ((endsRequest_iff hx).mpr ⟨r, hr, hbusy⟩)

theorem frameEnded_request_of_other (h : ∀ r, x = .reply r → r.status = .busy) : k.frameEnded.request = k.request :=
  if_neg fun hends => by
    obtain ⟨r, hr, hbusy⟩ := (endsRequest_iff hx).mp hends
    exact hbusy (h r hr)

end

/-- A request that has been answered, or has ended, holds no frame back. -/
theorem frameEnded_answered {k : LinkState} (h : ∀ r, k.request = some r → r.answered = true) :
    k.frameEnded.awaiting = false := by
  unfold LinkState.awaiting LinkState.frameEnded
  dsimp only
  cases k.endsRequest with
  | true => rfl
  | false =>
    cases hk : k.request with
    | none => rfl
    | some r => simp [h r hk]

theorem frameSent_of_restarting {s : State} {l : LinkId} (h : (s.link l).restarting = true) :
    frameSent l s = { s.setLink l (s.link l).frameEnded with power := { s.power with restartDue := true } } :=
  if_pos h

theorem frameSent_of_other {s : State} {l : LinkId} (h : (s.link l).restarting = false) :
    frameSent l s = s.setLink l (s.link l).frameEnded.kick :=
  if_neg (by simp [h])

/-! ### The events of the line -/

/-- R203: a RESTART is answered ACCEPTED, and nothing but its link changes. -/
theorem restart_accepted {s : State} {l : LinkId} (h : s.ready l) (hoffice : (s.link l).role = .office) (tag : Byte) :
    ∃ t, exec (.restart l tag []) s = .next t ∧ t.replied l tag 0x2C .accepted [] ∧ s.onlyLink t l :=
  ⟨_, rfl, request_unmoved h (officeOnly_of_office hoffice) (x := ())
    (body := fun _ u => ⟨u, .accepted, []⟩) rfl⟩

/-- Settles O48: the receiver's events, the end of a frame by what follows it, and the RESTART. -/
theorem lineEventsDriveLink : Obligations.LineEventsDriveLink := by
  refine ⟨fun s l why ht hr => ?_, fun s l x ht hr hx hanswered => ?_, fun s l tag h ho => restart_accepted h ho tag⟩
  · refine ⟨exec_badFrame ht hr why, exec_frameGapTimeout ht hr, fun hhunting => ?_, fun bs hbs hroom => ?_⟩
    · rw [exec_frameLeadByte ht hr, leadByte_of_hunting hhunting]
    · rw [exec_frameLeadByte ht hr, leadByte_of_receiving hbs hroom]
  · refine ⟨_, exec_frameSent ht hr hx, fun r hreply hcode hstatus => ?_, fun hother => ?_⟩
    · rw [frameSent_of_restarting ((restarting_iff hx).mpr ⟨r, hreply, hcode, hstatus⟩)]
      have hlink : State.link { s.setLink l (s.link l).frameEnded with power := { s.power with restartDue := true } } l =
          (s.link l).frameEnded := setLink_link_self s l _
      rw [hlink]
      exact ⟨rfl, rfl, frameEnded_request_of_reply hx hreply (by simp [hstatus]), rfl, rfl⟩
    · have hrestart : (s.link l).restarting = false := by
        rw [Bool.eq_false_iff]
        intro h
        obtain ⟨r, hreply, hr⟩ := (restarting_iff hx).mp h
        exact hother r hreply hr
      have hidle := frameEnded_answered hanswered
      rw [frameSent_of_other hrestart]
      unfold State.onlyLink
      rw [setLink_link_self]
      refine ⟨rfl, fun r rest hreplies => ?_, fun n rest hreplies hqueue => ?_, fun hreplies hqueue => ?_,
        fun r hreply hbusy => ?_, fun hbusy => ?_⟩
      · rw [kick_starts_reply rfl hidle hreplies]
        exact ⟨rfl, rfl, rfl⟩
      · rw [kick_starts_notice rfl hidle hreplies hqueue]
        exact ⟨rfl, rfl, rfl⟩
      · rw [kick_starts_nothing rfl hidle hreplies hqueue]
        rfl
      · rw [kick_request]
        exact frameEnded_request_of_reply hx hreply hbusy
      · rw [kick_request]
        exact frameEnded_request_of_other hx hbusy

end Sys2Proof.Machine
end

section
/-! PROOF. Every frame that names a request is answered by the state of its link (R183 to R186, R189, R190): STARTING
during start-up, BUSY while a request is pending, and else by the request's checks; a refusal changes nothing but the
link. -/

namespace Sys2Proof.Machine

/-! ### A frame on an enabled link -/

section
variable {α : Type} {s : State} {l : LinkId} (ht : s.taking = true) (hr : (s.link l).role ≠ .disabled)
  (code tag : Byte) (allowed : Role → Bool) (fields : Option α) (body : α → State → Answer)
include ht hr

/-- R185: a frame that finds a pending request is turned away. -/
theorem request_of_pending (h : (s.link l).request.isSome = true) :
    request l code tag allowed fields body s = s.setLink l ((s.link l).turnAway code tag) := by
  simp [request, ht, hr, h]

/-- R185, R186: a frame that finds none is handled and answered. -/
theorem request_of_idle (h : (s.link l).request = none) {a : Answer}
    (ha : handle l allowed fields body (s.handling l code tag) = a) :
    request l code tag allowed fields body s =
      a.state.setLink l ((a.state.link l).answer ⟨tag, code, a.status, a.data⟩) := by
  subst ha
  simp [request, ht, hr, h, State.handling]

end

theorem handling_request (s : State) (l : LinkId) (code tag : Byte) :
    ((s.handling l code tag).link l).request = some ⟨tag, code, false⟩ := by
  simp [State.handling, LinkState.take]

/-! ### What a frame is answered -/

/-- R186: a refusal that leaves everything as it was, or OK or ACCEPTED. -/
def Answer.refusesOrGrants (a : Answer) (s : State) : Prop :=
  (∃ st, a = refuse st s) ∨ a.status = .ok ∨ a.status = .accepted

/-- Everything the handling of a frame does once start-up has ended (R186 steps 2 to 5). -/
theorem handle_cases {α : Type} {l : LinkId} {allowed : Role → Bool} {fields : Option α}
    {body : α → State → Answer} {s : State} (h : s.power.phase = .running) :
    fields = none ∧ handle l allowed fields body s = refuse .badRequest s ∨
      (∃ x, fields = some x) ∧ allowed (s.link l).role = false ∧
        handle l allowed fields body s = refuse .notPermitted s ∨
      ∃ x, fields = some x ∧ allowed (s.link l).role = true ∧ handle l allowed fields body s = body x s := by
  cases fields with
  | none => exact .inl ⟨rfl, by simp [handle, h]⟩
  | some x =>
    cases ha : allowed (s.link l).role with
    | false => exact .inr (.inl ⟨⟨x, rfl⟩, rfl, by simp [handle, h, ha]⟩)
    | true => exact .inr (.inr ⟨x, rfl, rfl, by simp [handle, h, ha]⟩)

/-- R189: a role that may not send a request of a code is none that the request allows. -/
theorem denied_of_not_permitted {allowed : Role → Bool} {code : Byte} (hgate : allowed .gate = permits .gate code)
    (hkiosk : allowed .kiosk = permits .kiosk code) {r : Role} (hr : r ≠ .disabled) (h : permits r code = false) :
    allowed r = false := by
  cases r with
  | gate => exact hgate.trans h
  | kiosk => exact hkiosk.trans h
  | office => cases h
  | disabled => exact absurd rfl hr

/-- R185, R186, R189: how a frame is answered by the state of its link. -/
def State.settlesFrame (s : State) (i : Instr) (l : LinkId) (code tag : Byte) : Prop :=
  ∃ t, exec i s = .next t ∧
    ((s.link l).request = none → s.power.phase = .starting →
      t.replied l tag code .starting [] ∧ s.onlyLinkAndPin t l) ∧
    ((s.link l).request = none → s.power.phase = .running → ∃ st data, t.replied l tag code st data ∧
      (st ≠ .ok → st ≠ .accepted → data = [] ∧ s.onlyLinkAndPin t l) ∧
      (permits (s.link l).role code = false → st = .notPermitted ∨ st = .badRequest) ∧
      (∀ kind p, i = .unknownKind l kind tag p → st = .badRequest)) ∧
    ((s.link l).request.isSome = true → s.onlyLinkAndPin t l ∧ (t.link l).request = (s.link l).request ∧
      ((∀ r ∈ (s.link l).replies, r.status ≠ .busy) →
        (⟨tag, code, .busy, []⟩ ∈ (t.link l).replies ∨ (t.link l).tx = some (.reply ⟨tag, code, .busy, []⟩))) ∧
      ((∃ r ∈ (s.link l).replies, r.status = .busy) → t.link l = { s.link l with rx := none }))

theorem onlyLink_setLink (s : State) (l : LinkId) (k : LinkState) : s.onlyLink (s.setLink l k) l := by
  simp [State.onlyLink]

section
variable {α : Type} {s : State} {l : LinkId} (ht : s.taking = true) (hr : (s.link l).role ≠ .disabled)
  {code tag : Byte} {allowed : Role → Bool} {fields : Option α} {body : α → State → Answer}
include ht hr

/-- R186: a refusal is answered without data, and nothing but the link changes. -/
theorem request_refused (hidle : (s.link l).request = none) {st : Status}
    (h : handle l allowed fields body (s.handling l code tag) = refuse st (s.handling l code tag)) :
    (request l code tag allowed fields body s).replied l tag code st [] ∧
      s.onlyLink (request l code tag allowed fields body s) l := by
  rw [request_of_idle ht hr code tag allowed fields body hidle h]
  refine ⟨replied_of_handled _ l tag code st [] (handling_request s l code tag), ?_⟩
  simp [State.onlyLink, refuse, State.handling]

/-- R205: during start-up every request is refused STARTING. -/
theorem request_starting (hidle : (s.link l).request = none) (hp : s.power.phase = .starting) :
    (request l code tag allowed fields body s).replied l tag code .starting [] ∧
      s.onlyLink (request l code tag allowed fields body s) l :=
  request_refused ht hr hidle (if_pos hp)

/-- R186, R189: the answer to a frame that finds no request pending, once start-up has ended. -/
theorem request_running (hidle : (s.link l).request = none) (hp : s.power.phase = .running)
    (hbody : ∀ x u, (body x u).refusesOrGrants u)
    (hkept : ∀ x u, ((body x u).state.link l).request = (u.link l).request) :
    ∃ st data, (request l code tag allowed fields body s).replied l tag code st data ∧
      (st ≠ .ok → st ≠ .accepted → data = [] ∧ s.onlyLink (request l code tag allowed fields body s) l) ∧
      (allowed (s.link l).role = false → st = .notPermitted ∨ st = .badRequest) ∧
      (fields = none → st = .badRequest) := by
  have hrole : ((s.handling l code tag).link l).role = (s.link l).role := by simp [State.handling, LinkState.take]
  obtain ⟨_, h⟩ | ⟨⟨x, hx⟩, _, h⟩ | ⟨x, hx, ha, h⟩ :=
    handle_cases (s := s.handling l code tag) (allowed := allowed) (fields := fields) (body := body) hp
  · obtain ⟨hreplied, honly⟩ := request_refused ht hr hidle h
    exact ⟨_, _, hreplied, fun _ _ => ⟨rfl, honly⟩, fun _ => .inr rfl, fun _ => rfl⟩
  · obtain ⟨hreplied, honly⟩ := request_refused ht hr hidle h
    exact ⟨_, _, hreplied, fun _ _ => ⟨rfl, honly⟩, fun _ => .inl rfl, fun hn => nomatch hx.symm.trans hn⟩
  · have hallowed : allowed (s.link l).role ≠ false := by simp [← hrole, ha]
    have hknown : fields ≠ none := by simp [hx]
    obtain ⟨st, e⟩ | hgranted := hbody x (s.handling l code tag)
    · obtain ⟨hreplied, honly⟩ := request_refused ht hr hidle (h.trans e)
      exact ⟨_, _, hreplied, fun _ _ => ⟨rfl, honly⟩, fun hd => absurd hd hallowed, fun hn => absurd hn hknown⟩
    · rw [request_of_idle ht hr code tag allowed fields body hidle h]
      exact ⟨_, _, replied_of_handled _ l tag code _ _ ((hkept x _).trans (handling_request s l code tag)),
        fun hok haccepted => (hgranted.elim hok haccepted).elim, fun hd => absurd hd hallowed,
        fun hn => absurd hn hknown⟩

end

/-! ### A frame that finds a request pending (R185) -/

theorem turnAway_of_no_busy {k : LinkState} (code tag : Byte) (h : ∀ r ∈ k.replies, r.status ≠ .busy) :
    k.turnAway code tag = LinkState.kick { k with rx := none, replies := k.replies ++ [⟨tag, code, .busy, []⟩] } :=
  if_neg (by simpa using h)

theorem turnAway_of_busy {k : LinkState} (code tag : Byte) (h : ∃ r ∈ k.replies, r.status = .busy) :
    k.turnAway code tag = { k with rx := none } :=
  if_pos (by simpa using h)

theorem turnAway_request (k : LinkState) (code tag : Byte) : (k.turnAway code tag).request = k.request := by
  by_cases h : ∃ r ∈ k.replies, r.status = .busy
  · rw [turnAway_of_busy code tag h]
  · rw [turnAway_of_no_busy code tag fun r hr hb => h ⟨r, hr, hb⟩, kick_request]

/-- R185: the pending request stays, and the frame is answered BUSY or dropped. -/
theorem turnAway_answers (k : LinkState) (code tag : Byte) :
    (k.turnAway code tag).request = k.request ∧
      ((∀ r ∈ k.replies, r.status ≠ .busy) → ⟨tag, code, .busy, []⟩ ∈ (k.turnAway code tag).replies ∨
        (k.turnAway code tag).tx = some (.reply ⟨tag, code, .busy, []⟩)) ∧
      ((∃ r ∈ k.replies, r.status = .busy) → k.turnAway code tag = { k with rx := none }) := by
  refine ⟨turnAway_request k code tag, fun h => ?_, turnAway_of_busy code tag⟩
  rw [turnAway_of_no_busy code tag h]
  exact kick_reply _ _ (by simp)

/-! ### The bodies: refusals, and what is granted -/

section
variable {s : State}

theorem refusesOrGrants_refuse (st : Status) : (refuse st s).refusesOrGrants s := .inl ⟨st, rfl⟩

theorem refusesOrGrants_ok (u : State) (data : List Byte) : (⟨u, .ok, data⟩ : Answer).refusesOrGrants s :=
  .inr (.inl rfl)

theorem refusesOrGrants_accepted (u : State) (data : List Byte) : (⟨u, .accepted, data⟩ : Answer).refusesOrGrants s :=
  .inr (.inr rfl)

theorem refusesOrGrants_checked (checks : List (Bool × Status)) {go : Answer} (h : go.refusesOrGrants s) :
    (checked checks s go).refusesOrGrants s := by
  unfold checked
  split
  · exact refusesOrGrants_refuse _
  · exact h

end

theorem admitBody_answer (l : LinkId) (f : AdmitFields) (s : State) : (admitBody l f s).refusesOrGrants s := by
  unfold admitBody
  refine refusesOrGrants_checked _ ?_
  split
  · exact refusesOrGrants_refuse _
  · split
    · exact refusesOrGrants_accepted _ _
    · exact refusesOrGrants_ok _ _

theorem departBody_answer (f : DepartFields) (s : State) : (departBody f s).refusesOrGrants s := by
  unfold departBody
  refine refusesOrGrants_checked _ ?_
  split
  · exact refusesOrGrants_refuse _
  · refine refusesOrGrants_checked _ ?_
    split
    · exact refusesOrGrants_refuse _
    · dsimp only
      split
      · exact refusesOrGrants_accepted _ _
      · exact refusesOrGrants_ok _ _

theorem recaptureBody_answer (n : LaneId) (s : State) : (recaptureBody n s).refusesOrGrants s := by
  refine refusesOrGrants_checked _ ?_
  split
  · exact refusesOrGrants_refuse _
  · refine refusesOrGrants_checked _ ?_
    split
    · exact refusesOrGrants_refuse _
    · exact refusesOrGrants_accepted _ _

theorem cancelBody_answer (n : LaneId) (s : State) : (cancelBody n s).refusesOrGrants s := by
  refine refusesOrGrants_checked _ ?_
  split
  · exact refusesOrGrants_refuse _
  · split
    · exact refusesOrGrants_ok _ _
    · exact refusesOrGrants_refuse _

theorem reraiseBody_answer (n : LaneId) (s : State) : (reraiseBody n s).refusesOrGrants s := by
  refine refusesOrGrants_checked _ ?_
  split
  · exact refusesOrGrants_refuse _
  · exact refusesOrGrants_checked _ (refusesOrGrants_ok _ _)

theorem clearLaneBody_answer (n : LaneId) (s : State) : (clearLaneBody n s).refusesOrGrants s := by
  refine refusesOrGrants_checked _ ?_
  split
  · exact refusesOrGrants_refuse _
  · split
    · exact refusesOrGrants_ok _ _
    · exact refusesOrGrants_refuse _

theorem voidBody_answer (num : Nat) (s : State) : (voidBody num s).refusesOrGrants s := by
  unfold voidBody
  split
  · exact refusesOrGrants_refuse _
  · split
    · exact refusesOrGrants_ok _ _
    · exact refusesOrGrants_ok _ _
    · exact refusesOrGrants_ok _ _
    · exact refusesOrGrants_ok _ _
    · exact refusesOrGrants_refuse _

theorem reclassifyBody_answer (f : Nat × Nat) (s : State) : (reclassifyBody f s).refusesOrGrants s := by
  unfold reclassifyBody
  split
  · exact refusesOrGrants_refuse _
  · split
    · exact refusesOrGrants_refuse _
    · exact refusesOrGrants_ok _ _

theorem lowerResetBody_answer (n : LaneId) (s : State) : (lowerResetBody n s).refusesOrGrants s := by
  refine refusesOrGrants_checked _ ?_
  split
  · exact refusesOrGrants_refuse _
  · exact refusesOrGrants_ok _ _

theorem spotWeighBody_answer (l : LinkId) (d : DeckId) (s : State) : (spotWeighBody l d s).refusesOrGrants s :=
  refusesOrGrants_checked _ (refusesOrGrants_accepted _ _)

theorem zeroBody_answer (d : DeckId) (s : State) : (zeroBody d s).refusesOrGrants s :=
  refusesOrGrants_checked _ (refusesOrGrants_ok _ _)

theorem zeroCalBody_answer (calen : Bool) (d : DeckId) (s : State) : (zeroCalBody calen d s).refusesOrGrants s :=
  refusesOrGrants_checked _ (refusesOrGrants_accepted _ _)

theorem wakeBody_answer (d : DeckId) (s : State) : (wakeBody d s).refusesOrGrants s := by
  unfold wakeBody
  cases (s.deck d).state with
  | sleep | warming | active | service => exact refusesOrGrants_ok _ _
  | fault | unused => exact refusesOrGrants_refuse _

theorem serviceEnterBody_answer (d : DeckId) (s : State) : (serviceEnterBody d s).refusesOrGrants s := by
  unfold serviceEnterBody
  split
  · exact refusesOrGrants_refuse _
  · exact refusesOrGrants_ok _ _

theorem serviceLeaveBody_answer (d : DeckId) (s : State) : (serviceLeaveBody d s).refusesOrGrants s := by
  unfold serviceLeaveBody
  split
  · exact refusesOrGrants_ok _ _
  · exact refusesOrGrants_refuse _

theorem tareWriteBody_answer (e : TareEntry) (s : State) : (tareWriteBody e s).refusesOrGrants s := by
  unfold tareWriteBody
  split
  · exact refusesOrGrants_refuse _
  · split
    · exact refusesOrGrants_refuse _
    · exact refusesOrGrants_accepted _ _

theorem tareEraseBody_answer (p : Plate) (s : State) : (tareEraseBody p s).refusesOrGrants s := by
  unfold tareEraseBody
  split
  · exact refusesOrGrants_refuse _
  · split
    · exact refusesOrGrants_refuse _
    · exact refusesOrGrants_accepted _ _

theorem tareReadBody_answer (f : TareReadForm) (s : State) : (tareReadBody f s).refusesOrGrants s := by
  unfold tareReadBody
  split
  · exact refusesOrGrants_ok _ _
  · split
    · exact refusesOrGrants_refuse _
    · exact refusesOrGrants_ok _ _

theorem setupWriteBody_answer (calen : Bool) (g : SetupGiven) (s : State) :
    (setupWriteBody calen g s).refusesOrGrants s := by
  unfold setupWriteBody
  split
  · exact refusesOrGrants_refuse _
  · exact refusesOrGrants_accepted _ _

theorem yardModeBody_answer (m : ModeAsked) (s : State) : (yardModeBody m s).refusesOrGrants s := by
  unfold yardModeBody
  cases s.register.mode with
  | opened | closing => cases m <;> exact refusesOrGrants_ok _ _
  | closed =>
    cases m with
    | opened =>
      dsimp only
      split
      · exact refusesOrGrants_ok _ _
      · exact refusesOrGrants_refuse _
    | closing | forceClosed => exact refusesOrGrants_refuse _

theorem ticketBaseBody_answer (n : Nat) (s : State) : (ticketBaseBody n s).refusesOrGrants s := by
  unfold ticketBaseBody
  split
  · exact refusesOrGrants_refuse _
  · exact refusesOrGrants_ok _ _

theorem readVisitBody_answer (v : Nat) (s : State) : (readVisitBody v s).refusesOrGrants s := by
  unfold readVisitBody
  split
  · exact refusesOrGrants_refuse _
  · exact refusesOrGrants_ok _ _

theorem readTicketBody_answer (n : Nat) (s : State) : (readTicketBody n s).refusesOrGrants s := by
  unfold readTicketBody
  split
  · exact refusesOrGrants_ok _ _
  · split
    · exact refusesOrGrants_refuse _
    · exact refusesOrGrants_ok _ _

theorem slotReadBody_answer (l : LinkId) (i : SlotId) (s : State) : (slotReadBody l i s).refusesOrGrants s := by
  unfold slotReadBody
  split
  · exact refusesOrGrants_refuse _
  · exact refusesOrGrants_ok _ _

theorem slotReturnBody_answer (l : LinkId) (i : SlotId) (s : State) : (slotReturnBody l i s).refusesOrGrants s := by
  unfold slotReturnBody
  split
  · exact refusesOrGrants_refuse _
  · split
    · exact refusesOrGrants_ok _ _
    · exact refusesOrGrants_refuse _

theorem journalRoleBody_answer (l : LinkId) (r : JournalRole) (s : State) :
    (journalRoleBody l r s).refusesOrGrants s := by
  unfold journalRoleBody
  split
  · exact refusesOrGrants_refuse _
  · exact refusesOrGrants_ok _ _

/-! ### The bodies: links that change by offers, and the pending request that stays -/

/-- Work whose links change by offers, and the close of its event. -/
theorem offers_of_closes {s : State} {a : Answer} {P : State → Prop} (hP : ∀ u, P u → OffersOnly s.links u.links)
    (h : a.closes s P) : OffersOnly s.links a.state.links := by
  obtain e | ⟨u, hu, e⟩ := h
  · rw [e]
    exact .refl _
  · rw [e]
    exact (hP u hu).trans (yard_finish _ u).links

theorem reclassifyBody_offers (f : Nat × Nat) (s : State) : OffersOnly s.links (reclassifyBody f s).state.links := by
  unfold reclassifyBody
  split
  · exact .refl _
  · split
    · exact .refl _
    · exact offersOnly_offerAll _ _

/-- R175: a new mask leaves the pending request. -/
theorem subscribed_request (s : State) (l : LinkId) (m : BitVec 8) :
    ((s.subscribed l m).link l).request = (s.link l).request := by
  simp [State.subscribed]

theorem slotReturnBody_offers (l : LinkId) (i : SlotId) (s : State) :
    OffersOnly s.links (slotReturnBody l i s).state.links := by
  unfold slotReturnBody
  split
  · exact .refl _
  · split
    · exact (yard_returnSlot l i s).links
    · exact .refl _

theorem journalRoleBody_offers (l : LinkId) (r : JournalRole) (s : State) :
    OffersOnly s.links (journalRoleBody l r s).state.links := by
  unfold journalRoleBody
  split
  · exact .refl _
  · exact (yard_takeJournalRole l r s).links

/-! ### A command that is a request -/

section
variable {α : Type} {s u : State} {i : Instr} {l : LinkId} {code tag : Byte} {allowed : Role → Bool}
  {fields : Option α} {body : α → State → Answer}
  (he : exec i s = .next (request l code tag allowed fields body u)) (hu : s.withCalen u.power.calen = u)
include he hu

/-- R184 to R186, R189: a command whose meaning is a request, which samples the CALEN pin or leaves it (log entry 5). -/
theorem settlesFrame_of_request (ht : s.taking = true) (hr : (s.link l).role ≠ .disabled)
    (hdenied : permits (s.link l).role code = false → allowed (s.link l).role = false ∨ fields = none)
    (hunknown : ∀ kind p, i = .unknownKind l kind tag p → fields = none)
    (hbody : ∀ x w, (body x w).refusesOrGrants w)
    (hkept : ∀ x w, ((body x w).state.link l).request = (w.link l).request) : s.settlesFrame i l code tag := by
  rw [← hu] at he
  generalize u.power.calen = calen at he
  have ht' : (s.withCalen calen).taking = true := ht
  have hr' : ((s.withCalen calen).link l).role ≠ .disabled := hr
  refine ⟨_, he, fun hidle hp => ?_, fun hidle hp => ?_, fun hpending => ?_⟩
  · obtain ⟨hreplied, honly⟩ := request_starting (code := code) (tag := tag) (allowed := allowed) (fields := fields)
      (body := body) ht' hr' hidle hp
    exact ⟨hreplied, onlyLinkAndPin_of_withCalen honly⟩
  · obtain ⟨st, data, hreplied, hrefused, hnot, hbad⟩ := request_running (code := code) (tag := tag)
      (allowed := allowed) (fields := fields) ht' hr' hidle hp hbody hkept
    refine ⟨st, data, hreplied, fun hok haccepted => ?_, fun h => (hdenied h).elim hnot fun hn => .inr (hbad hn),
      fun kind p h => hbad (hunknown kind p h)⟩
    obtain ⟨hdata, honly⟩ := hrefused hok haccepted
    exact ⟨hdata, onlyLinkAndPin_of_withCalen honly⟩
  · rw [request_of_pending ht' hr' code tag allowed fields body hpending, setLink_link_self]
    exact ⟨onlyLinkAndPin_of_withCalen (onlyLink_setLink _ l _), turnAway_answers _ code tag⟩

variable (hi : i.unknownKind? = none) (hgate : allowed .gate = permits .gate code)
  (hkiosk : allowed .kiosk = permits .kiosk code) (ht : s.taking = true) (hr : (s.link l).role ≠ .disabled)
  (hbody : ∀ x w, (body x w).refusesOrGrants w)
include hi hgate hkiosk ht hr hbody

/-- R190: a command of a known kind, with the roles its request allows. -/
theorem settlesFrame_of_known (hkept : ∀ x w, ((body x w).state.link l).request = (w.link l).request) :
    s.settlesFrame i l code tag :=
  settlesFrame_of_request he hu ht hr (fun h => .inl (denied_of_not_permitted hgate hkiosk hr h))
    (fun _ _ e => by rw [e] at hi; cases hi) hbody hkept

theorem settlesFrame_of_offers (h : ∀ x w, OffersOnly w.links (body x w).state.links) : s.settlesFrame i l code tag :=
  settlesFrame_of_known he hu hi hgate hkiosk ht hr hbody fun x w => by
    obtain ⟨_, _, _, _, hrequest⟩ := (h x w).fixed l
    exact hrequest

theorem settlesFrame_of_links (h : ∀ x w, (body x w).state.links = w.links) : s.settlesFrame i l code tag :=
  settlesFrame_of_offers he hu hi hgate hkiosk ht hr hbody fun x w => h x w ▸ .refl _

theorem settlesFrame_of_work (h : ∀ x w, (body x w).closes w (YardWork w)) : s.settlesFrame i l code tag :=
  settlesFrame_of_offers he hu hi hgate hkiosk ht hr hbody fun x w =>
    offers_of_closes (fun _ hw => hw.yard.links) (h x w)

theorem settlesFrame_of_quiet (h : ∀ x w, (body x w).closes w (QuietWork w)) : s.settlesFrame i l code tag :=
  settlesFrame_of_offers he hu hi hgate hkiosk ht hr hbody fun x w =>
    offers_of_closes (fun _ hw => hw.yard.links) (h x w)

end

/-! ### Every request -/

/-- R184 to R186, R189, command by command. -/
theorem exec_settlesFrame {i : Instr} {l : LinkId} {code tag : Byte} {s : State} (h : requestOf i = some (l, code, tag))
    (ht : s.taking = true) (hr : (s.link l).role ≠ .disabled) : s.settlesFrame i l code tag := by
  cases i with
  | admitVehicle l tag p =>
    cases h
    exact settlesFrame_of_quiet rfl rfl rfl rfl rfl ht hr (admitBody_answer l) (admitBody_closes l)
  | depart l tag p =>
    cases h
    exact settlesFrame_of_work rfl rfl rfl rfl rfl ht hr departBody_answer departBody_closes
  | recapture l tag p =>
    cases h
    exact settlesFrame_of_quiet rfl rfl rfl rfl rfl ht hr recaptureBody_answer recaptureBody_closes
  | cancel l tag p =>
    cases h
    exact settlesFrame_of_quiet rfl rfl rfl rfl rfl ht hr cancelBody_answer cancelBody_closes
  | reraise l tag p =>
    cases h
    exact settlesFrame_of_quiet rfl rfl rfl rfl rfl ht hr reraiseBody_answer reraiseBody_closes
  | clearLane l tag p =>
    cases h
    exact settlesFrame_of_quiet rfl rfl rfl rfl rfl ht hr clearLaneBody_answer clearLaneBody_closes
  | voidVisit l tag p =>
    cases h
    exact settlesFrame_of_work rfl rfl rfl rfl rfl ht hr voidBody_answer voidBody_closes
  | reclassify l tag p =>
    cases h
    exact settlesFrame_of_offers rfl rfl rfl rfl rfl ht hr reclassifyBody_answer reclassifyBody_offers
  | manualRaise l tag p =>
    cases h
    exact settlesFrame_of_quiet rfl rfl rfl rfl rfl ht hr (fun _ _ => refusesOrGrants_ok _ _)
      (fun n w => closes_taken (quiet_manualRaise n w) .ok [])
  | lowerReset l tag p =>
    cases h
    exact settlesFrame_of_quiet rfl rfl rfl rfl rfl ht hr lowerResetBody_answer lowerResetBody_closes
  | spotWeigh l tag p =>
    cases h
    exact settlesFrame_of_quiet rfl rfl rfl rfl rfl ht hr (spotWeighBody_answer l) (spotWeighBody_closes l)
  | wake l tag p =>
    cases h
    exact settlesFrame_of_quiet rfl rfl rfl rfl rfl ht hr wakeBody_answer wakeBody_closes
  | zeroDeck l tag p =>
    cases h
    exact settlesFrame_of_links rfl rfl rfl rfl rfl ht hr zeroBody_answer (fun _ _ => checked_links rfl)
  | zeroCal l tag p calen =>
    cases h
    exact settlesFrame_of_links rfl rfl rfl rfl rfl ht hr (zeroCalBody_answer calen) (zeroCalBody_links calen)
  | serviceEnter l tag p =>
    cases h
    exact settlesFrame_of_quiet rfl rfl rfl rfl rfl ht hr serviceEnterBody_answer serviceEnterBody_closes
  | serviceLeave l tag p =>
    cases h
    exact settlesFrame_of_quiet rfl rfl rfl rfl rfl ht hr serviceLeaveBody_answer serviceLeaveBody_closes
  | tareWrite l tag p =>
    cases h
    exact settlesFrame_of_links rfl rfl rfl rfl rfl ht hr tareWriteBody_answer tareWriteBody_links
  | tareErase l tag p =>
    cases h
    exact settlesFrame_of_links rfl rfl rfl rfl rfl ht hr tareEraseBody_answer tareEraseBody_links
  | tareRead l tag p =>
    cases h
    exact settlesFrame_of_links rfl rfl rfl rfl rfl ht hr tareReadBody_answer tareReadBody_links
  | setupWrite l tag p calen =>
    cases h
    exact settlesFrame_of_links rfl rfl rfl rfl rfl ht hr (setupWriteBody_answer calen) (setupWriteBody_links calen)
  | setYardMode l tag p =>
    cases h
    exact settlesFrame_of_quiet rfl rfl rfl rfl rfl ht hr yardModeBody_answer yardModeBody_closes
  | setClock l tag p =>
    cases h
    exact settlesFrame_of_offers rfl rfl rfl rfl rfl ht hr (fun _ _ => refusesOrGrants_ok _ _)
      (fun now w => (yard_judgeOverstay { w with clock := ⟨now, true, 0⟩ }).links)
  | setTicketBase l tag p =>
    cases h
    exact settlesFrame_of_links rfl rfl rfl rfl rfl ht hr ticketBaseBody_answer ticketBaseBody_links
  | restart l tag p =>
    cases h
    exact settlesFrame_of_links rfl rfl rfl rfl rfl ht hr (fun _ _ => refusesOrGrants_accepted _ _) (fun _ _ => rfl)
  | readClock l tag p | identify l tag p | readDeck l tag p | readLane l tag p | listVisits l tag p | slotHalt l tag p
  | setupRead l tag p calen =>
    cases h
    exact settlesFrame_of_links rfl rfl rfl rfl rfl ht hr (fun _ _ => refusesOrGrants_ok _ _) (fun _ _ => rfl)
  | readVisit l tag p =>
    cases h
    exact settlesFrame_of_links rfl rfl rfl rfl rfl ht hr readVisitBody_answer readVisitBody_links
  | readTicket l tag p =>
    cases h
    exact settlesFrame_of_links rfl rfl rfl rfl rfl ht hr readTicketBody_answer readTicketBody_links
  | slotRead l tag p =>
    cases h
    exact settlesFrame_of_links rfl rfl rfl rfl rfl ht hr (slotReadBody_answer l) (slotReadBody_links l)
  | slotReturn l tag p =>
    cases h
    exact settlesFrame_of_offers rfl rfl rfl rfl rfl ht hr (slotReturnBody_answer l) (slotReturnBody_offers l)
  | slotResume l tag p =>
    cases h
    exact settlesFrame_of_offers rfl rfl rfl rfl rfl ht hr (fun _ _ => refusesOrGrants_ok _ _)
      (fun _ w => (yard_resumeSlots l w).links)
  | setSubscription l tag p =>
    cases h
    exact settlesFrame_of_known rfl rfl rfl rfl rfl ht hr (fun _ _ => refusesOrGrants_ok _ _)
      (fun m w => subscribed_request w l m)
  | setJournalRole l tag p =>
    cases h
    exact settlesFrame_of_offers rfl rfl rfl rfl rfl ht hr (journalRoleBody_answer l) (journalRoleBody_offers l)
  | unknownKind l kind tag p =>
    cases h
    exact settlesFrame_of_request rfl rfl ht hr (fun _ => .inr rfl) (fun _ _ _ => rfl)
      (fun _ _ => refusesOrGrants_refuse _) (fun _ _ => rfl)
  | _ => cases h

/-- Settles O49: the frames received, and how every request is answered by the state of its link. -/
theorem refusalsChangeNothing : Obligations.RefusalsChangeNothing := by
  refine ⟨fun l kind tag p calen hp => ?_, fun _ _ _ _ _ hi ht hr => exec_settlesFrame hi ht hr⟩
  obtain ⟨hrequest, hpayload, _⟩ := commandOf_spec l kind tag p calen
  exact ⟨received_frameBytes l calen kind tag p hp, hrequest, hpayload, commandOf_unknown l kind tag p calen,
    commandOf_wellFormed l kind tag p calen hp⟩

end Sys2Proof.Machine
end

section
/-! PROOF. The loss of the main supply, the reset input and the beginning of a start-up (R200 to R202, R204, R131, R182,
R188). -/

namespace Sys2Proof.Machine

/-! ### The part stops -/

theorem taking_of_power {s : State} (h : s.power.main = false ∨ s.power.resetPin = true) : s.taking = false := by
  obtain h | h := h <;> simp [State.taking, h]

/-- R131: the store of the part stopped is that of the write abandoned. -/
theorem halt_abandonsWrite (s : State) : s.abandonsWrite (halt s) := abandonWrite_store s

/-- R200, R202: with its supplies or the reset input changed, the part stops. -/
theorem halt_of_power (s : State) (p : Power) (h : p.main = false ∨ p.resetPin = true) :
    let t := halt { s with power := p }
    t.power = { p with phase := .starting, restartDue := false } ∧ t.taking = false ∧ t.outputsOff ∧
      t.store.engine = none ∧ s.abandonsWrite t ∧ s.keepsBackup t := by
  obtain ⟨houtputs, hbackup, hengine, _, hpower⟩ := halt_spec { s with power := p }
  exact ⟨hpower, taking_of_power (by rw [hpower]; exact h), houtputs, hengine, halt_abandonsWrite { s with power := p },
    hbackup⟩

theorem exec_mainSupplyLoss {s : State} (h : s.power.main = true) :
    exec .mainSupplyLoss s = .next (halt { s with power := { s.power with main := false } }) :=
  congrArg Host.Outcome.next (if_pos h)

theorem exec_resetPinAssert (s : State) :
    exec .resetPinAssert s = .next (halt { s with power := { s.power with resetPin := true } }) := rfl

/-- R201: the backup supply's failure tells only while the main supply is absent. -/
theorem exec_backupSupplyFail (s : State) :
    exec .backupSupplyFail s =
      .next (if s.power.main then s else { s with power := { s.power with backupValid := false } }) := rfl

/-! ### A start-up begins -/

/-- R200, R202: the part that a POWER_ON finds, its supply present. -/
def State.supplied (s : State) : State :=
  abandonWrite { s with power := { s.power with main := true, checkPending := true } }

theorem supplied_frame (s : State) :
    s.supplied.power = { s.power with main := true, checkPending := true } ∧
      ∀ t, s.supplied.keepsBackup t → s.keepsBackup t := by
  obtain ⟨hframe, _⟩ := abandonWrite_frame { s with power := { s.power with main := true, checkPending := true } }
  unfold State.supplied
  rw [hframe]
  exact ⟨rfl, fun _ h => h⟩

theorem exec_powerOn {s : State} (h : s.power.resetPin = false) (straps : Straps) :
    exec (.powerOn straps) s = .next (beginStart .powerOn straps s.supplied) :=
  congrArg Host.Outcome.next (if_neg (by simp [h]))

theorem exec_resetPinRelease {s : State} (hpin : s.power.resetPin = true) (hmain : s.power.main = true)
    (straps : Straps) :
    exec (.resetPinRelease straps) s =
      .next (beginStart .resetPin straps { s with power := { s.power with resetPin := false } }) :=
  congrArg Host.Outcome.next (if_pos (by simp [hpin, hmain]))

/-- R182, R188: a start-up begins with every link as its straps say and without traffic. -/
theorem beginStart_links (kind : ResetKind) (straps : Straps) (s : State) (l : LinkId) :
    let k := (beginStart kind straps s).link l
    k.role = roleOf (straps.get l).role ∧ k.speed = (straps.get l).speed ∧ k.rx = none ∧ k.request = none ∧
      k.replies = [] ∧ k.tx = none ∧ k.queue = [] ∧ k.overrun = false := by
  obtain ⟨_, _, _, _, _, hlink⟩ := beginStart_spec kind straps s
  rw [hlink]
  exact ⟨rfl, rfl, rfl, rfl, rfl, rfl, rfl, rfl⟩

/-- Settles O51: each event of the supplies and the reset input, by what stops the part or begins a start-up. -/
theorem resetsStopAndBegin : Obligations.ResetsStopAndBegin := by
  intro s straps
  refine ⟨fun hmain => ?_, ?_, fun hmain => ?_, fun hmain => ?_, fun hpin => ?_, fun hpin hmain => ?_⟩
  · obtain ⟨hpower, htaking, houtputs, hengine, hstore, hbackup⟩ :=
      halt_of_power s { s.power with main := false } (.inl rfl)
    exact ⟨_, exec_mainSupplyLoss hmain, by rw [hpower], htaking, houtputs, hengine, hstore, hbackup, by rw [hpower]⟩
  · obtain ⟨hpower, htaking, houtputs, hengine, hstore, hbackup⟩ :=
      halt_of_power s { s.power with resetPin := true } (.inr rfl)
    exact ⟨_, exec_resetPinAssert s, by rw [hpower], htaking, houtputs, hengine, hstore, hbackup, by rw [hpower]⟩
  · simp [exec_backupSupplyFail, hmain]
  · simp [exec_backupSupplyFail, hmain]
  · obtain ⟨houtputs, hbackup, _, _, hpower, _⟩ := beginStart_spec .powerOn straps s.supplied
    obtain ⟨hsupplied, hkeeps⟩ := supplied_frame s
    rw [hsupplied] at hpower
    exact ⟨_, exec_powerOn hpin straps, by rw [hpower], by rw [hpower], by rw [hpower]; rfl, by rw [hpower],
      by rw [hpower], houtputs, hkeeps _ hbackup, beginStart_links _ _ _⟩
  · obtain ⟨houtputs, hbackup, _, _, hpower, _⟩ :=
      beginStart_spec .resetPin straps { s with power := { s.power with resetPin := false } }
    refine ⟨_, exec_resetPinRelease hpin hmain straps, by rw [hpower], by rw [hpower],
      by rw [hpower]; exact Bool.or_false _, by rw [hpower], by rw [hpower], houtputs, hbackup, fun l => ?_⟩
    obtain ⟨hrole, hspeed, hrx, hrequest, _, htx, hqueue, _⟩ :=
      beginStart_links .resetPin straps { s with power := { s.power with resetPin := false } } l
    exact ⟨hrole, hspeed, hrx, hrequest, htx, hqueue⟩

end Sys2Proof.Machine
end

section
/-! PROOF. A RESTART (R203, R204, R144): the write in flight abandoned and marked, and the come-ups over the records in
effect (R8, R27, R50, R69, R93, R128). -/

namespace Sys2Proof.Machine

/-! ### The abandoned write and its mark (R144) -/

theorem markAbandoned_frame (st : Store) (w : StoreWrite) :
    (st.markAbandoned w).engine = st.engine ∧ (st.markAbandoned w).yardSetup = st.yardSetup ∧
      (st.markAbandoned w).yardBad = st.yardBad := by
  cases w <;> exact ⟨rfl, rfl, rfl⟩

theorem tear_frame (st : Store) (w : StoreWrite) :
    (st.tear w).yardSetup = st.yardSetup ∧ (st.tear w).yardBad = st.yardBad := by
  cases w <;> exact ⟨rfl, rfl⟩

theorem abandonMarked_idle {s : State} (h : s.store.engine = none) :
    abandonMarked s = { s with store := { s.store with lostList := [] } } := by
  unfold abandonMarked
  rw [h]

/-- R131, R144: the mark stands on the store as it was, or as it was torn at the write's place. -/
theorem abandonMarked_store {s : State} {g : Engine} (h : s.store.engine = some g) :
    ∃ st, (st = s.store ∨ st = s.store.tear g.write) ∧
      (abandonMarked s).store = ({ st with engine := none } : Store).markAbandoned g.write := by
  have hmarked : (abandonMarked s).store = (abandonWrite s).store.markAbandoned g.write := by
    unfold abandonMarked
    rw [h]
  obtain ⟨_, habandoned⟩ := abandonWrite_store s
  obtain hstore | ⟨_, hstore⟩ := habandoned g h
  · exact ⟨s.store, .inl rfl, by rw [hmarked, hstore]⟩
  · exact ⟨s.store.tear g.write, .inr rfl, by rw [hmarked, hstore]⟩

/-- R144: a RESTART leaves the engine IDLE and the yard setup in effect as it was; outside the store only the free value
moves on. -/
theorem abandonMarked_frame (s : State) :
    abandonMarked s = { s with store := (abandonMarked s).store, freeIndex := (abandonMarked s).freeIndex } ∧
      (abandonMarked s).store.engine = none ∧ (abandonMarked s).store.yardSetup = s.store.yardSetup ∧
      (abandonMarked s).store.yardBad = s.store.yardBad := by
  cases hg : s.store.engine with
  | none =>
    rw [abandonMarked_idle hg]
    exact ⟨rfl, hg, rfl, rfl⟩
  | some g =>
    refine ⟨?_, ?_⟩
    · obtain ⟨hframe, _⟩ := abandonWrite_frame s
      unfold abandonMarked
      rw [hg]
      dsimp only
      rw [hframe]
    · obtain ⟨st, hst, hstore⟩ := abandonMarked_store hg
      obtain ⟨hengine, hsetup, hbad⟩ := markAbandoned_frame { st with engine := none } g.write
      obtain ⟨htornSetup, htornBad⟩ := tear_frame s.store g.write
      rw [hstore, hengine, hsetup, hbad]
      obtain rfl | rfl := hst
      · exact ⟨rfl, rfl, rfl⟩
      · exact ⟨rfl, htornSetup, htornBad⟩

/-- R144: the index of an abandoned tare write is INVALID; the others are as they were. -/
theorem abandonMarked_tare {s : State} {g : Engine} (hg : s.store.engine = some g) {i : Fin 256}
    {e : Option TareEntry} (hw : g.write = .tare i e) :
    ((abandonMarked s).store.tare.get i).status = .invalid ∧
      ∀ j, j ≠ i → (abandonMarked s).store.tare.get j = s.store.tare.get j := by
  obtain ⟨st, hst, hstore⟩ := abandonMarked_store hg
  rw [hw] at hst hstore
  have hothers : ∀ j, j ≠ i → st.tare.get j = s.store.tare.get j := fun j hj => by
    obtain rfl | rfl := hst
    · rfl
    · exact get_setAt_ne _ _ hj
  rw [hstore]
  exact ⟨congrArg TareSlot.status (get_setAt_self _ _ _), fun j hj => (get_setAt_ne _ _ hj).trans (hothers j hj)⟩

/-- R144: the record of an abandoned deck setup write is SUSPECT. -/
theorem abandonMarked_deck {s : State} {g : Engine} (hg : s.store.engine = some g) {d : DeckId} {u : DeckSetup}
    (hw : g.write = .deck d u) : ((abandonMarked s).store.deck.get d).status = .suspect := by
  obtain ⟨st, _, hstore⟩ := abandonMarked_store hg
  rw [hw] at hstore
  rw [hstore]
  exact congrArg SetupSlot.status (get_setAt_self _ _ _)

/-! ### What the come-ups leave of channels, windows and lanes -/

theorem decksUp_readingsStand (s : State) : s.readingsStand (decksUp s) := by
  unfold decksUp
  generalize allDecks = ds
  have hup : s.readingsStand { s with decks := Vector.ofFn (fun d => (s.deck d).comeUp (s.lane d).setup.wake) } :=
    readingsStand_refl s
  generalize ({ s with decks := Vector.ofFn (fun d => (s.deck d).comeUp (s.lane d).setup.wake) } : State) = u at hup ⊢
  induction ds generalizing u with
  | nil => exact hup
  | cons d ds ih =>
    exact ih _ (hup.trans (readingsStand_of_mapMembers (d := d) rfl (onDeckChange_follows (u.deck d).state _)))

theorem comeUps_readingsStand (s : State) : s.readingsStand (comeUps s) :=
  have ⟨_, hchannels⟩ := comeUps_decks s
  State.readingsStand.trans (a := s) (decksUp_readingsStand (cellsUp (registerUp s)))
    (readingsStand_of_channels hchannels)

theorem entered_window_nil {k : Deck} (h : k.window = []) (new : DeckState) (cause : WakeCause) :
    (k.entered new cause).window = [] := by
  obtain ⟨_, _, _, _, _, _, _, _, _, _, _, _, hempties, hkeeps⟩ := entered_frame k new cause
  cases he : emptiesOn k.state new with
  | true => exact (hempties he).1
  | false => exact (hkeeps he).1.trans h

/-- A register with its visits changed in all but their numbers finds the same visits, so changed. -/
theorem find_of_map {r r' : Register} {f : Visit → Visit} (h : r'.visits = r.visits.map f)
    (hf : ∀ x, (f x).number = x.number) (v : Nat) : r'.find v = (r.find v).map f := by
  unfold Register.find
  rw [h, List.find?_map]
  congr 2
  funext x
  exact congrArg (· == v) (hf x)

theorem comeUps_visits (s : State) : (comeUps s).register.visits =
    s.register.afterReset.visits.map (Visit.judged s.clock.time s.store.yardSetup.maxStay) := by
  rw [comeUps_register]
  show _ = (s.register.visits.map Visit.afterReset).map _
  rw [List.map_map]
  rfl

/-- R121, R128: the overstay judgment does not reach the direction of a bound lane. -/
theorem boundDirection_comeUps (s : State) (b : Option Nat) :
    boundDirection s.register.afterReset b = boundDirection (comeUps s).register b := by
  have hfind := find_of_map (comeUps_visits s) (fun x => by rw [judged_eq])
  unfold boundDirection
  cases b with
  | none => rfl
  | some v =>
    simp only [Option.bind_some, hfind]
    cases s.register.afterReset.find v with
    | none => rfl
    | some x =>
      rw [Option.map_some, judged_eq]

/-- R87, R93, R128: a lane that has come up, with the direction of its binding. -/
theorem comeUps_lane_setup (s : State) (n : LaneId) : ∃ w, (comeUps s).lane n =
    { ({ s.lane n with setup := { (s.lane n).setup with
        direction := (boundDirection (comeUps s).register ((comeUps s).bound n)).getD
          (s.lane n).setup.direction } } : Lane).comeUp with word := w } := by
  obtain ⟨_, _, _, _, hdecks, _⟩ := decksUp_frame (cellsUp (registerUp s))
  obtain ⟨_, _, _, _, _, _, _, hlane⟩ := lanesUp_frame (decksUp (cellsUp (registerUp s)))
  obtain ⟨w, hw⟩ := hlane n
  refine ⟨w, ?_⟩
  have hrest : (comeUps s).lane n = (lanesUp (decksUp (cellsUp (registerUp s)))).lane n :=
    congrArg (Vector.get · n) (laterComeUps_lanes _)
  have hbound : s.register.afterReset.bindings.get n = (comeUps s).bound n := by
    unfold State.bound
    rw [comeUps_register]
  have hup : (decksUp (cellsUp (registerUp s))).lane n = { s.lane n with setup := { (s.lane n).setup with
      direction := (boundDirection s.register.afterReset (s.register.afterReset.bindings.get n)).getD
        (s.lane n).setup.direction } } := by
    unfold State.lane
    rw [hdecks]
    exact get_ofFn _ _
  rw [hrest, hw, hup, hbound, boundDirection_comeUps]

/-! ### The part as a RESTART ends -/

/-- The part as the come-ups of a RESTART begin (R203, R204): the straps read, the write in flight marked. -/
def State.restartBegun (s : State) (straps : Straps) : State := abandonMarked (beginStart .restart straps s)

theorem exec_restartBegin {s : State} (hup : s.up = true) (hdue : s.power.restartDue = true) (straps : Straps) :
    exec (.restartBegin straps) s = .next (comeUps (s.restartBegun straps)) :=
  congrArg Host.Outcome.next (if_pos (by simp [hup, State.restartWaits, hdue]))

/-- R204 step 1 with R144: outside the store the part is as cleared, its kind recorded. -/
theorem restartBegun_frame (s : State) (straps : Straps) :
    let u := s.restartBegun straps
    u.channels = s.channels.map Channel.cleared ∧ u.decks = s.decks.map Deck.cleared ∧
      u.units = Vector.replicate 4 CaptureUnit.reset ∧ u.lanes = s.lanes.map Lane.cleared ∧
      u.register = s.register ∧ u.clock = s.clock ∧ u.journal.records = s.journal.records ∧
      u.journal.counter = s.journal.counter ∧ u.power.restartDue = false ∧ u.power.lastKind = .restart ∧
      u.power.lastCheck = .notChecked := by
  obtain ⟨hframe, _⟩ := abandonMarked_frame (beginStart .restart straps s)
  dsimp only [State.restartBegun]
  rw [hframe]
  exact ⟨rfl, rfl, rfl, rfl, rfl, rfl, rfl, rfl, rfl, rfl, rfl⟩

section
variable {s t : State} {straps : Straps} (ht : t = comeUps (s.restartBegun straps))
include ht

theorem restart_power : t.power.phase = .running ∧ t.power.restartDue = false ∧ t.power.lastKind = .restart ∧
    t.power.lastCheck = .notChecked := by
  obtain ⟨_, _, _, _, hpower, _⟩ := comeUps_spec (s.restartBegun straps)
  obtain ⟨_, _, _, _, _, _, _, _, hdue, hkind, hcheck⟩ := restartBegun_frame s straps
  rw [ht, hpower]
  exact ⟨rfl, hdue, hkind, hcheck⟩

/-- R144: the store as the abandoned write and its mark leave it. -/
theorem restart_store : t.store = { (s.restartBegun straps).store with lostList := [] } := by
  obtain ⟨_, _, _, hstore, _⟩ := comeUps_spec (s.restartBegun straps)
  rw [ht, hstore]

theorem restart_store_idle (h : s.store.engine = none) : t.store = { s.store with lostList := [] } := by
  rw [restart_store ht, State.restartBegun, abandonMarked_idle (s := beginStart .restart straps s) h]
  rfl

theorem restart_yard_setup : t.store.engine = none ∧ t.store.yardSetup = s.store.yardSetup ∧
    t.store.yardBad = s.store.yardBad := by
  obtain ⟨_, hrest⟩ := abandonMarked_frame (beginStart .restart straps s)
  rw [restart_store ht]
  exact hrest

/-- R8: no reading stands, no channel is LOST. -/
theorem restart_chan (c : ChanId) :
    (t.chan c).cal = (s.chan c).cal ∧ (t.chan c).raw = none ∧ (t.chan c).lost = false := by
  obtain ⟨hchannels, _⟩ := restartBegun_frame s straps
  have hchan : (s.restartBegun straps).chan c = (s.chan c).cleared := by
    unfold State.chan
    rw [hchannels, get_map]
  have hcal := comeUps_cal (s.restartBegun straps) c
  obtain ⟨hraw, _, _, hlost⟩ := comeUps_readingsStand (s.restartBegun straps) c
  rw [hchan, ← ht] at hcal hraw hlost
  exact ⟨hcal, hraw, hlost.elim id id⟩

/-- R27, R50: each deck keeps its record in effect and its service mark, its window empty. -/
theorem restart_deck (d : DeckId) :
    (t.deck d).setup = (s.deck d).setup ∧ (t.deck d).setupBad = (s.deck d).setupBad ∧ (t.deck d).window = [] ∧
      (t.deck d).service = (s.deck d).service := by
  obtain ⟨_, hdecks, _⟩ := restartBegun_frame s straps
  have hbegun : (s.restartBegun straps).deck d = (s.deck d).cleared := by
    unfold State.deck
    rw [hdecks, get_map]
  obtain ⟨mask, hdeck⟩ := comeUps_deck (s.restartBegun straps) d
  rw [hbegun, ← ht] at hdeck
  obtain ⟨_, _, hsetup, hbad, hservice, _⟩ :=
    entered_frame ((s.deck d).cleared.comeUp mask) (firstState (s.restartBegun straps) d) .request
  rw [hdeck]
  exact ⟨hsetup, hbad, entered_window_nil rfl _ _, hservice⟩

theorem restart_unit (d : DeckId) : t.unit d = ⟨none, none⟩ := by
  obtain ⟨_, _, hunits, _⟩ := restartBegun_frame s straps
  obtain ⟨_, _, _, _, _, hunits', _⟩ := comeUps_spec (s.restartBegun straps)
  unfold State.unit
  rw [ht, hunits', hunits]
  exact get_replicate _ _

/-- R93, R128: each lane as cleared and come up, with the direction of its binding. -/
theorem restart_lane (n : LaneId) : ∃ w, t.lane n =
    { ({ (s.lane n).cleared with setup := { (s.lane n).setup with
        direction := (boundDirection t.register (t.bound n)).getD (s.lane n).setup.direction } } : Lane).comeUp with
      word := w } := by
  obtain ⟨_, _, _, hlanes, _⟩ := restartBegun_frame s straps
  have hbegun : (s.restartBegun straps).lane n = (s.lane n).cleared := by
    unfold State.lane
    rw [hlanes, get_map]
  obtain ⟨w, hlane⟩ := comeUps_lane_setup (s.restartBegun straps) n
  rw [hbegun, ← ht] at hlane
  exact ⟨w, hlane⟩

/-- R70, R128: a lane's record in effect is kept, but for the direction of a bound lane. -/
theorem restart_lane_setup (n : LaneId) :
    (t.lane n).setup = { (s.lane n).setup with direction := (t.lane n).setup.direction } ∧
      (t.lane n).setupBad = (s.lane n).setupBad ∧
      (t.bound n = none → (t.lane n).setup.direction = (s.lane n).setup.direction) ∧
      ∀ v x, t.bound n = some v → t.register.find v = some x →
        (t.lane n).setup.direction = (if x.state = .released then .exit else .entry) := by
  obtain ⟨w, hlane⟩ := restart_lane ht n
  have hdirection : (t.lane n).setup.direction =
      (boundDirection t.register (t.bound n)).getD (s.lane n).setup.direction := by rw [hlane]; rfl
  refine ⟨by rw [hlane]; rfl, by rw [hlane]; rfl, fun hfree => ?_, fun v x hv hx => ?_⟩
  · rw [hdirection, hfree]
    rfl
  · simp [hdirection, hv, hx, boundDirection]

/-- R87, R93: every barrier is UNRESOLVED, without a cause, its outputs inactive. -/
theorem restart_barrier (n : LaneId) :
    (t.lane n).barrier = .unresolved ∧ (t.lane n).cause = none ∧ (t.lane n).raiseOut = false ∧
      (t.lane n).lowerOut = false ∧ (t.lane n).goOut = false := by
  obtain ⟨w, hlane⟩ := restart_lane ht n
  rw [hlane]
  exact ⟨rfl, rfl, rfl, rfl, rfl⟩

/-- R200, R203: the clock, the register's mode, counter and visits' order, and the journal's records are kept. -/
theorem restart_kept : t.clock = s.clock ∧ t.register.mode = s.register.mode ∧
    t.register.counter = s.register.counter ∧
    t.register.visits.map (·.number) = s.register.visits.map (·.number) ∧
    t.journal.records = s.journal.records ∧ t.journal.counter = s.journal.counter := by
  obtain ⟨_, _, _, _, hregister, hclock, hrecords, hcounter, _⟩ := restartBegun_frame s straps
  obtain ⟨hclock', _, _, _, _, _, _, hrecords', hcounter', hmode, hnext, hnumbers, _⟩ :=
    comeUps_spec (s.restartBegun straps)
  rw [hregister, ← ht] at hmode hnext hnumbers
  rw [← ht] at hclock' hrecords' hcounter'
  exact ⟨hclock'.trans hclock, hmode, hnext, hnumbers, hrecords'.trans hrecords, hcounter'.trans hcounter⟩

/-- R128: every visit has lived through the reset. -/
theorem restart_visit {v : Visit} (hv : v ∈ t.register.visits) :
    v.flags.restartSeen = true ∧ v.state ≠ .weighOut := by
  rw [ht, comeUps_register] at hv
  obtain ⟨x, _, rfl⟩ := List.mem_map.mp hv
  obtain ⟨_, _, hseen, _, hstate⟩ := visitAfterReset_frame x
  rw [judged_eq]
  exact ⟨hseen, hstate⟩

end

/-- Settles O53: the RESTART block by block, over the part with its write abandoned and marked. -/
theorem restartKeepsRecordsInEffect : Obligations.RestartKeepsRecordsInEffect := by
  intro s straps hup hdue
  obtain ⟨t, ht⟩ : ∃ t, t = comeUps (s.restartBegun straps) := ⟨_, rfl⟩
  obtain ⟨hphase, hended, hkind, hcheck⟩ := restart_power ht
  obtain ⟨hengine, hyard, hyardBad⟩ := restart_yard_setup ht
  obtain ⟨hclock, hmode, hnext, hnumbers, hrecords, hcounter⟩ := restart_kept ht
  refine ⟨t, ht ▸ exec_restartBegin hup hdue straps, hphase, hended, hkind, hcheck, hclock, hengine, hyard,
    restart_chan ht, fun d => ?_, hyardBad, restart_lane_setup ht, restart_barrier ht, hmode, hnext, hnumbers,
    fun v => restart_visit ht, hrecords, hcounter, restart_store_idle ht, fun g i e hg hw => ?_,
    fun g d u hg hw => ?_⟩
  · obtain ⟨hsetup, hbad, hwindow, hservice⟩ := restart_deck ht d
    exact ⟨hsetup, hbad, restart_unit ht d, hwindow, hservice⟩
  · rw [restart_store ht]
    exact abandonMarked_tare (s := beginStart .restart straps s) hg hw
  · rw [restart_store ht]
    exact abandonMarked_deck (s := beginStart .restart straps s) hg hw

end Sys2Proof.Machine
end

section
/-! PROOF. The queue of commands: a step runs the command at the front; every command answers a next state, and none
touches what waits (95_what_each_step_holds.md). -/

namespace Sys2Proof.Machine

/-! ### The step -/

theorem step_of_waiting {s : State} {c : Instr} {rest : List Instr} (h : s.pending = c :: rest) :
    step s = exec c { s with pending := rest } := by
  simp [step, h]

/-- Log entry 8. -/
theorem step_of_idle {s : State} (h : s.pending = []) : step s = .next s := by
  simp [step, h]

/-- Settles O1: the front of such a queue is the command itself. -/
theorem stepRunsFrontCommand : Obligations.StepRunsFrontCommand := fun _ _ _ => step_of_waiting rfl

/-! ### No command ends in a fault or a refusal -/

/-- Every meaning is a next state; that of a detector fault is one whether the part is up or not. -/
theorem exec_answers (c : Instr) (s : State) : ∃ t, exec c s = .next t := by
  cases c with
  | detectorFaultAsserted n i =>
    by_cases hu : s.up = true
    · exact ⟨_, exec_detectorFaultAsserted_up hu n i⟩
    · exact ⟨_, exec_detectorFaultAsserted_down hu n i⟩
  | detectorFaultCleared n i =>
    by_cases hu : s.up = true
    · exact ⟨_, exec_detectorFaultCleared_up hu n i⟩
    · exact ⟨_, exec_detectorFaultCleared_down hu n i⟩
  | _ => exact ⟨_, rfl⟩

/-! ### Parts of a meaning that leave what waits -/

theorem ite_pending {p : Prop} [Decidable p] {s t u : State} (ht : t.pending = s.pending) (hu : u.pending = s.pending) :
    (if p then t else u).pending = s.pending := by
  split
  · exact ht
  · exact hu

theorem keepsFixed_pending {s t : State} (h : s.keepsFixed t) : t.pending = s.pending := by
  obtain ⟨_, _, _, hpending, _⟩ := h
  exact hpending

theorem clearWorking_pending (s : State) : (clearWorking s).pending = s.pending := by
  obtain ⟨_, _, _, hpending, _⟩ := clearWorking_spec s
  exact hpending

theorem abandonWrite_pending (s : State) : (abandonWrite s).pending = s.pending := by
  rw [(abandonWrite_frame s).1]

theorem abandonMarked_pending (s : State) : (abandonMarked s).pending = s.pending := by
  rw [(abandonMarked_frame s).1]

theorem halt_pending (s : State) : (halt s).pending = s.pending :=
  (clearWorking_pending _).trans (abandonWrite_pending s)

theorem beginStart_pending (kind : ResetKind) (straps : Straps) (s : State) :
    (beginStart kind straps s).pending = s.pending := by
  obtain ⟨_, _, _, hpending, _⟩ := beginStart_spec kind straps s
  exact hpending

theorem comeUps_pending (s : State) : (comeUps s).pending = s.pending := by
  obtain ⟨_, hpending, _⟩ := comeUps_spec s
  exact hpending

theorem backupCheck_pending (s : State) : (backupCheck s).pending = s.pending := by
  have hdomain : (if s.power.backupValid then s else clearBackup s).pending = s.pending := ite_pending rfl rfl
  exact ite_pending hdomain rfl

theorem frameSent_pending (l : LinkId) (s : State) : (frameSent l s).pending = s.pending := ite_pending rfl rfl

/-! ### Requests -/

/-- A request leaves what waits where its body does. -/
theorem request_pending {α : Type} {l : LinkId} {code tag : Byte} {allowed : Role → Bool} {fields : Option α}
    {body : α → State → Answer} (s : State) (hbody : ∀ x (u : State), (body x u).state.pending = u.pending) :
    (request l code tag allowed fields body s).pending = s.pending := by
  rcases request_cases l code tag allowed fields body s with e | ⟨k, _, e⟩ | ⟨_, x, r, e⟩
  · rw [e]
  · rw [e, setLink_pending]
  · rw [e, setLink_pending, hbody]
    rfl

theorem checked_pending {checks : List (Bool × Status)} {s : State} {go : Answer} (h : go.state.pending = s.pending) :
    (checked checks s go).state.pending = s.pending := by
  unfold checked
  split
  · rfl
  · exact h

theorem zeroCalBody_pending (calen : Bool) (d : DeckId) (s : State) :
    (zeroCalBody calen d s).state.pending = s.pending := by
  refine checked_pending ?_
  unfold startZeroCal
  dsimp only
  split <;> rfl

theorem tareWriteBody_pending (e : TareEntry) (s : State) : (tareWriteBody e s).state.pending = s.pending := by
  unfold tareWriteBody
  split
  · rfl
  · split <;> rfl

theorem tareEraseBody_pending (p : Plate) (s : State) : (tareEraseBody p s).state.pending = s.pending := by
  unfold tareEraseBody
  split
  · rfl
  · split <;> rfl

theorem tareReadBody_pending (f : TareReadForm) (s : State) : (tareReadBody f s).state.pending = s.pending := by
  unfold tareReadBody
  split
  · rfl
  · split <;> rfl

theorem setupWriteBody_pending (calen : Bool) (g : SetupGiven) (s : State) :
    (setupWriteBody calen g s).state.pending = s.pending := by
  unfold setupWriteBody
  split <;> rfl

theorem ticketBaseBody_pending (n : Nat) (s : State) : (ticketBaseBody n s).state.pending = s.pending := by
  unfold ticketBaseBody
  split <;> rfl

theorem readVisitBody_pending (v : Nat) (s : State) : (readVisitBody v s).state.pending = s.pending := by
  unfold readVisitBody
  split <;> rfl

theorem readTicketBody_pending (n : Nat) (s : State) : (readTicketBody n s).state.pending = s.pending := by
  unfold readTicketBody
  split
  · rfl
  · split <;> rfl

theorem slotReadBody_pending (l : LinkId) (i : SlotId) (s : State) :
    (slotReadBody l i s).state.pending = s.pending := by
  unfold slotReadBody
  split <;> rfl

theorem slotReturnBody_pending (l : LinkId) (i : SlotId) (s : State) :
    (slotReturnBody l i s).state.pending = s.pending := by
  unfold slotReturnBody
  split
  · rfl
  · split
    · exact (yard_returnSlot l i s).pending
    · rfl

theorem journalRoleBody_pending (l : LinkId) (r : JournalRole) (s : State) :
    (journalRoleBody l r s).state.pending = s.pending := by
  unfold journalRoleBody
  split
  · rfl
  · exact (yard_takeJournalRole l r s).pending

/-! ### Every command -/

section
variable {i : Instr} {s t : State} (h : exec i s = .next t)
include h

/-- The events and requests of the yard keep fixed what lies outside it, and the queue does. -/
theorem isYardEvent_pending (hi : isYardEvent i = true) : t.pending = s.pending :=
  (isYardEvent_shown hi h).1.yard.pending

theorem isYardRequest_pending {l : LinkId} {code tag : Byte} (hl : requestOf i = some (l, code, tag))
    (hi : isYardRequest i = true ∨ isRecordRequest i = true) : t.pending = s.pending := by
  obtain hi | hi := hi
  · exact keepsFixed_pending (isYardRequest_shown hi h hl).1.fixed
  · exact keepsFixed_pending (isRecordRequest_shown hi h hl).fixed

/-- A command that is a request; the level of CALEN it may sample is no matter of the queue. -/
theorem requestCommand_pending {α : Type} {l : LinkId} {code tag : Byte} {allowed : Role → Bool} {fields : Option α}
    {body : α → State → Answer} {u : State} (hu : u.pending = s.pending)
    (he : exec i s = .next (request l code tag allowed fields body u))
    (hbody : ∀ x (w : State), (body x w).state.pending = w.pending) : t.pending = s.pending := by
  rw [he] at h
  cases h
  exact (request_pending u hbody).trans hu

end

/-- R132: of the end of a write, what takes effect and the close leave the queue. -/
theorem storeWriteDone_pending {s t : State} (h : exec .storeWriteDone s = .next t) : t.pending = s.pending := by
  rw [exec_storeWriteDone] at h
  obtain rfl | ⟨_, _, rfl⟩ := yardEvent_cases h
  · rfl
  · exact (yard_finish _ _).pending.trans (completeWrite_frame s).1.pending

/-- No command touches what waits, command by command. -/
theorem exec_pending {i : Instr} {s t : State} (h : exec i s = .next t) : t.pending = s.pending := by
  cases i with
  | cellReading c raw ok => exact (cellReading_shown h).yard.pending
  | periodTimerExpiry | warmUpTimerExpiry | idleTimerExpiry | stableTimeoutExpiry | loopLevelChange
  | loopDebounceExpiry | detectorFaultAsserted | detectorFaultCleared | limitInputChange | limitDebounceExpiry
  | travelTimerExpiry | settleTimerExpiry | resolutionTimerExpiry => exact isYardEvent_pending h rfl
  | clockSecond =>
    cases h
    exact ite_pending (ite_pending (yard_judgeOverstay (advanceClock s)).pending rfl) rfl
  | storeWriteDone => exact storeWriteDone_pending h
  | admitVehicle | recapture | cancel | reraise | clearLane | reclassify | manualRaise | lowerReset | spotWeigh | wake
  | serviceEnter | serviceLeave | setYardMode => exact isYardRequest_pending h rfl (.inl rfl)
  | depart | voidVisit => exact isYardRequest_pending h rfl (.inr rfl)
  | zeroDeck l tag p => exact requestCommand_pending h rfl rfl (fun _ _ => checked_pending rfl)
  | zeroCal l tag p calen =>
    exact requestCommand_pending (u := s.withCalen calen) h rfl rfl (zeroCalBody_pending calen)
  | tareWrite l tag p => exact requestCommand_pending h rfl rfl tareWriteBody_pending
  | tareErase l tag p => exact requestCommand_pending h rfl rfl tareEraseBody_pending
  | tareRead l tag p => exact requestCommand_pending h rfl rfl tareReadBody_pending
  | setupWrite l tag p calen =>
    exact requestCommand_pending (u := s.withCalen calen) h rfl rfl (setupWriteBody_pending calen)
  | setupRead l tag p calen => exact requestCommand_pending (u := s.withCalen calen) h rfl rfl (fun _ _ => rfl)
  | setClock l tag p =>
    exact requestCommand_pending h rfl rfl
      (fun now w => (yard_judgeOverstay { w with clock := ⟨now, true, 0⟩ }).pending)
  | setTicketBase l tag p => exact requestCommand_pending h rfl rfl ticketBaseBody_pending
  | readClock | restart | identify | readDeck | readLane | listVisits | slotHalt | setSubscription | unknownKind =>
    exact requestCommand_pending h rfl rfl (fun _ _ => rfl)
  | readVisit l tag p => exact requestCommand_pending h rfl rfl readVisitBody_pending
  | readTicket l tag p => exact requestCommand_pending h rfl rfl readTicketBody_pending
  | slotRead l tag p => exact requestCommand_pending h rfl rfl (slotReadBody_pending l)
  | slotReturn l tag p => exact requestCommand_pending h rfl rfl (slotReturnBody_pending l)
  | slotResume l tag p => exact requestCommand_pending h rfl rfl (fun _ w => (yard_resumeSlots l w).pending)
  | setJournalRole l tag p => exact requestCommand_pending h rfl rfl (journalRoleBody_pending l)
  | badFrame | frameGapTimeout | frameLeadByte =>
    cases h
    exact ite_pending rfl rfl
  | frameSent l =>
    cases h
    exact ite_pending (frameSent_pending l s) rfl
  | restartBegin straps =>
    cases h
    refine ite_pending ?_ rfl
    rw [comeUps_pending, abandonMarked_pending, beginStart_pending]
  | powerOn straps =>
    cases h
    have hsupplied : s.supplied.pending = s.pending := abandonWrite_pending _
    exact ite_pending ((clearWorking_pending _).trans hsupplied) ((beginStart_pending _ _ _).trans hsupplied)
  | resetPinAssert =>
    cases h
    exact halt_pending _
  | resetPinRelease straps =>
    cases h
    exact ite_pending (beginStart_pending _ _ _) rfl
  | storeScanDone =>
    cases h
    refine ite_pending ?_ rfl
    rw [comeUps_pending, backupCheck_pending]
    rfl
  | mainSupplyLoss =>
    cases h
    exact ite_pending (halt_pending _) rfl
  | backupSupplyFail =>
    cases h
    exact ite_pending rfl rfl

/-- Settles O2: every command answers a next state, and what waits is the same after it; with nothing waiting, idle. -/
theorem commandsCompleteAndKeepQueue : Obligations.CommandsCompleteAndKeepQueue := by
  refine ⟨fun s => step_of_idle, fun c s => ?_⟩
  obtain ⟨t, ht⟩ := exec_answers c s
  exact ⟨t, ht, exec_pending ht⟩

end Sys2Proof.Machine
end
